-- ==== Sys2Proof/Word.lean ====
section
/-! DEFINITION. The one unit every channel of the block moves (spec 00_scope section 6.1, 20_memory R41, R43): the byte,
and the finite ordered byte sequence. -/

namespace Sys2Proof

/-- `u8` of spec 00_scope section 6.1: an unsigned integer 0..255. -/
abbrev Byte := BitVec 8

/-- `bytes` of spec 00_scope section 6.1: a finite ordered sequence of `u8`, oldest (first transmitted) first. -/
abbrev Bytes := List Byte

end Sys2Proof
end

