-- ==== Sys2Proof/Config.lean ====
section
/-! DEFINITION. The constants the spec fixes (00_scope R5, R6), the OPEN parameters as data (R6, R15), and the free
values: what an implementation or the environment chooses and the spec does not (R6 OPEN, R16, R44). -/

namespace Sys2Proof

/-! ### Wire constants and fixed parameters (00_scope R5, R6) -/

/-- PREAMBLE, POSTAMBLE and the first start byte, `0x00` (R5). -/
def zeroByte : Byte := 0x00#8
/-- Second byte of the start code `0x00 0xFF` (R5). -/
def startByte : Byte := 0xFF#8
/-- Host-to-device TFI (R5). -/
def tfiHost : Byte := 0xD4#8
/-- Device-to-host TFI (R5). -/
def tfiDevice : Byte := 0xD5#8
/-- Firmware-version opcode (R5, R66). -/
def opFirmware : Byte := 0x02#8
/-- SAM-configuration opcode (R5, R66). -/
def opSam : Byte := 0x14#8
/-- List-passive-target opcode (R5, R66). -/
def opListTarget : Byte := 0x4A#8
/-- `MAX_PARAMS` (R5, R6; conflict C3: the number 252 wins). -/
def maxParams : Nat := 252
/-- `[SAM_MODE, SAM_TIMEOUT, SAM_IRQ]` (R6, R68; conflict C1 fixes the timeout byte at `0x14`). -/
def samParams : Bytes := [0x01#8, 0x14#8, 0x01#8]
/-- `expected_response_len` of the SAM configuration (R66; the spec's decision D6). -/
def samResultLen : Nat := 0
/-- `FW_RESULT_LEN` (R5, R6). -/
def fwResultLen : Nat := 4
/-- `TARGET_RESULT_LEN` (R5, R6). -/
def targetResultLen : Nat := 19
/-- `MAX_TARGETS` (R6, R69). -/
def maxTargets : Byte := 0x01#8
/-- `WAKEUP_RETRIES` (R6, R130: "exactly once"). -/
def wakeupRetries : Nat := 1

/-! ### The OPEN parameters (00_scope R6) -/

/-- The parameters R6 marks OPEN: control inputs the block reads and never writes (10_state R15), constant during an
operation and changeable between operations (D4). Durations are plain numbers in no stated unit: no rule depends on the
value of one (R236). -/
structure Params where
  /-- `BAUD_RATE_CODE` (D26). -/
  baudRateCode : Byte
  /-- `UID_LEN_OFFSET` (D25). -/
  uidLenOffset : Nat
  /-- The MODEL's: whether "10-byte UIDs are to be readable" in this configuration, the condition under which R222 bounds
  `UID_LEN_OFFSET` (log entry 5); only `Params.Valid` reads it. -/
  tenByteUids : Bool
  /-- `THRESHOLD`, at least 1 (D31). -/
  threshold : Nat
  /-- `WAKE_55_COUNT`, at least 1 (D5). -/
  wake55Count : Nat
  /-- `WAKE_00_COUNT`, at least 1 (D5). -/
  wake00Count : Nat
  /-- `CMD_TIMEOUT` (D32). -/
  cmdTimeout : Nat
  /-- `SHORT_TIMEOUT` (D32). -/
  shortTimeout : Nat
  /-- `WAIT_POLL_INTERVAL` (D32); no rule reads it. -/
  waitPollInterval : Nat
  /-- `READ_SLICE` (D32); no rule reads it. -/
  readSlice : Nat
  /-- `POLL_INTERVAL` (D32), a host duty; no rule reads it. -/
  pollInterval : Nat
  /-- `RESET_LOW_HOLD_MS` (D33); no rule reads it. -/
  resetLowHoldMs : Nat
  /-- `RESET_HIGH_SETTLE_MS` (D33); no rule reads it. -/
  resetHighSettleMs : Nat
  /-- `RX_DEPTH`, `none` for unbounded (D34); unbounded in the model, no rule reads it. -/
  rxDepth : Option Nat
  deriving DecidableEq, Repr, Inhabited

/-- The configurations the spec admits: the four conditions of 70_reset_and_hazards R222 (93 section 2). -/
abbrev Params.Valid (p : Params) : Prop :=
  1 ≤ p.threshold ∧ 1 ≤ p.wake55Count ∧ 1 ≤ p.wake00Count ∧ (p.tenByteUids = true → p.uidLenOffset + 11 ≤ 19)

/-- A valid choice of `UID_LEN_OFFSET` (R222): at most 8 where 10-byte UIDs are to be readable, any number elsewhere. -/
inductive UidLayout where
  | tenByte (offset : Fin 9)
  | shorter (offset : Nat)
  deriving DecidableEq, Repr, Inhabited

/-- The offset of a layout. -/
def UidLayout.offset : UidLayout → Nat
  | .tenByte o => o.val
  | .shorter o => o

/-- Whether a layout is for 10-byte UIDs. -/
def UidLayout.readsTenByte : UidLayout → Bool
  | .tenByte _ => true
  | .shorter _ => false

/-! ### A TagUID by its length (10_state R20) -/

/-- "an ordered byte sequence of length 4, 7, or 10" (R20), so typed that a free value is one. -/
inductive TagUid where
  | four (b : Vector Byte 4)
  | seven (b : Vector Byte 7)
  | ten (b : Vector Byte 10)
  deriving DecidableEq, Repr, Inhabited

/-- The bytes of a TagUID. -/
def TagUid.bytes : TagUid → Bytes
  | .four b => b.toList
  | .seven b => b.toList
  | .ten b => b.toList

/-! ### What the environment draws (20_memory R44, 41_transport R110) -/

/-- One draw of the environment at the draw point of `clear_and_write` (R110, R44): whether the write succeeds, how many
bytes went out when it does not (D17), and what arrived after the discard (R44; R110 corner case). -/
structure WriteDraw where
  ok : Bool
  sent : Nat
  arrived : Bytes
  deriving DecidableEq, Repr, Inhabited

/-! ### Free values: opaque, so that no proof can lean on one -/

/-- The environment's draw number `n` at a write, once the script of draws has run out (R44: `any value`). -/
opaque Config.freeWrite : Nat → WriteDraw
/-- The environment's draw number `n` at a wait or a read, once the script of draws has run out (R44: `any value`). -/
opaque Config.freeArrival : Nat → Bytes
/-- Content of `rxbuf` after block reset (10_state R16, D34: `any value`). -/
opaque Config.rxbufAtReset : Bytes
/-- `BAUD_RATE_CODE` of this implementation (R6 OPEN). -/
opaque Config.baudRateCode : Byte
/-- `UID_LEN_OFFSET` of this implementation (R6 OPEN), valid by its type (R222). -/
opaque Config.uidLayout : UidLayout
/-- The TagUID that `TRACKER_STEP` number `n` takes for a sequence that is none, where the spec states no result (43_tracker
R169, R170; log entry 22, DESIGN CHOICE). -/
opaque Config.freeUid : Nat → TagUid
/-- `THRESHOLD` of this implementation, at least 1 by its type (R6 OPEN, R222). -/
opaque Config.threshold : PNat
/-- `WAKE_55_COUNT` of this implementation, at least 1 by its type (R6 OPEN, R222). -/
opaque Config.wake55Count : PNat
/-- `WAKE_00_COUNT` of this implementation, at least 1 by its type (R6 OPEN, R222). -/
opaque Config.wake00Count : PNat
/-- `CMD_TIMEOUT` (R6 OPEN). -/
opaque Config.cmdTimeout : Nat
/-- `SHORT_TIMEOUT` (R6 OPEN). -/
opaque Config.shortTimeout : Nat
/-- `WAIT_POLL_INTERVAL` (R6 OPEN). -/
opaque Config.waitPollInterval : Nat
/-- `READ_SLICE` (R6 OPEN). -/
opaque Config.readSlice : Nat
/-- `POLL_INTERVAL` (R6 OPEN). -/
opaque Config.pollInterval : Nat
/-- `RESET_LOW_HOLD_MS` (R6 OPEN). -/
opaque Config.resetLowHoldMs : Nat
/-- `RESET_HIGH_SETTLE_MS` (R6 OPEN). -/
opaque Config.resetHighSettleMs : Nat
/-- `RX_DEPTH` (R6 OPEN). -/
opaque Config.rxDepth : Option Nat

/-- The parameters the block is constructed with: every OPEN one a free value (R6: "the model takes it as an argument"). -/
def Params.reset : Params where
  baudRateCode := Config.baudRateCode
  uidLenOffset := Config.uidLayout.offset
  tenByteUids := Config.uidLayout.readsTenByte
  threshold := Config.threshold.val
  wake55Count := Config.wake55Count.val
  wake00Count := Config.wake00Count.val
  cmdTimeout := Config.cmdTimeout
  shortTimeout := Config.shortTimeout
  waitPollInterval := Config.waitPollInterval
  readSlice := Config.readSlice
  pollInterval := Config.pollInterval
  resetLowHoldMs := Config.resetLowHoldMs
  resetHighSettleMs := Config.resetHighSettleMs
  rxDepth := Config.rxDepth

end Sys2Proof
end

