-- ==== Sys2Proof/Syntax.lean ====
section
/-! DEFINITION. The instructions: one constructor per row of spec/opcode_table.json (17 host operations of 30_encoding
R70, R75, and 7 wire patterns of R62 to R69), and what an instruction is read from. -/

namespace Sys2Proof

/-- The 24 rows of spec/opcode_table.json. -/
inductive Instr where
  /-- `ENCODE_COMMAND` (R90). -/
  | encodeCommand (opcode : Byte) (params : Bytes)
  /-- `DECODE_ACK` (R94). -/
  | decodeAck (bytes : Bytes)
  /-- `DECODE_RESPONSE` (R96). -/
  | decodeResponse (bytes : Bytes) (expectedOpcode : Byte)
  /-- `CLEAR_AND_WRITE` (R110). -/
  | clearAndWrite (out : Bytes)
  /-- `READ_EXACT_AVAILABLE` (R113). -/
  | readExactAvailable (maxCount : Nat)
  /-- `WAIT_FOR_DATA` (R116); the duration's value does not enter the model (R236). -/
  | waitForData (timeout : Nat)
  /-- `RESET_SEQUENCE` (R119). -/
  | resetSequence
  /-- `INITIALIZE` (R130). -/
  | initSession
  /-- `WAKEUP` (R135). -/
  | wakeup
  /-- `EXCHANGE` (R140); `n` is `expected_response_len`. -/
  | exchange (opcode : Byte) (params : Bytes) (n : Nat) (timeout : Nat)
  /-- `CALL` (R145). -/
  | call (opcode : Byte) (params : Bytes) (n : Nat) (timeout : Nat)
  /-- `GET_FIRMWARE_VERSION` (R150). -/
  | getFirmwareVersion
  /-- `SAM_CONFIGURATION` (R152). -/
  | samConfiguration
  /-- `READ_TARGET` (R155). -/
  | readTarget
  /-- `TRACKER_STEP` (R170); the raw poll result `R`, an optional TagUID (R169). -/
  | trackerStep (raw : Option Bytes)
  /-- `POLL` (R175). -/
  | poll
  /-- `FORMAT_UID` (R178). -/
  | formatUid (uid : Bytes)
  /-- `FRAME_COMMAND`: a command frame on the transmit channel (R62). -/
  | frameCommand (opcode : Byte) (params : Bytes)
  /-- `FRAME_RESPONSE`: a response frame on the receive channel, `zeros` bytes `0x00` before `0xFF`, `trail` after DCS
  (R63). -/
  | frameResponse (zeros : Nat) (echo : Byte) (results : Bytes) (trail : Bytes)
  /-- `FRAME_ACK`: the ACK on the receive channel (R64). -/
  | frameAck
  /-- `WAKE_BYTES`: the wake-up preamble on the transmit channel, `n55` bytes `0x55` then `n00` bytes `0x00` (R65). -/
  | wakeBytes (n55 : Nat) (n00 : Nat)
  /-- `CMD_GET_FIRMWARE_VERSION`: that command's frame on the transmit channel (R67). -/
  | cmdGetFirmwareVersion
  /-- `CMD_SAM_CONFIGURATION`: that command's frame on the transmit channel (R68). -/
  | cmdSamConfiguration
  /-- `CMD_IN_LIST_PASSIVE_TARGET`: that command's frame on the transmit channel, `bb` its free byte (R69). -/
  | cmdInListPassiveTarget (bb : Byte)
  deriving DecidableEq, Repr

/-- What the host puts on the request port (D1, R70): the 5-bit operation select and the operands by value. The spec
gives `op_sel` its bits and the operands none, so an operand lane holds its value (log entry 3, DESIGN CHOICE). -/
structure Request where
  /-- `op_sel[4:0]` (R70). -/
  opSel : BitVec 5
  /-- `opcode` or `expected_opcode`. -/
  opcode : Byte
  /-- `params`, `bytes`, `out` or `uid`. -/
  bytes : Bytes
  /-- `n` or `max_count`. -/
  count : Nat
  /-- `timeout`. -/
  timeout : Nat
  /-- `R` of `TRACKER_STEP`. -/
  raw : Option Bytes
  deriving DecidableEq, Repr

/-- What an instruction is read from: a request on the host's port, or the bytes of a wire pattern. -/
inductive Code where
  | request (r : Request)
  | wire (bs : Bytes)
  deriving DecidableEq, Repr

/-- Why some code is no instruction. -/
inductive DecodeError where
  /-- `op_sel` outside the table of R70. -/
  | unknownOpSel (sel : BitVec 5)
  /-- The bytes match none of the seven wire patterns (R62 to R69). -/
  | notAWirePattern
  deriving DecidableEq, Repr

end Sys2Proof
end

