-- ==== Sys2Proof/WellFormed.lean ====
section
/-! DEFINITION. When an instruction's operands are of the types the spec gives them (30_encoding R62 to R69, 41_transport
R113, 43_tracker R169, R178). -/

namespace Sys2Proof

/-- A TagUID is "an ordered byte sequence of length 4, 7, or 10" (10_state R20). -/
def isTagUid (u : Bytes) : Bool :=
  u.length == 4 || u.length == 7 || u.length == 10

/-- A raw poll result is `None` or `Some` of a TagUID (43_tracker R169). -/
def isRawResult : Option Bytes → Bool
  | none => true
  | some u => isTagUid u

/-- The three commands that have wire rows of their own (R67, R68, R69): such a frame is read as that row, not as
`FRAME_COMMAND` (log entry 16). -/
def isNamedCommand (opcode : Byte) (params : Bytes) : Bool :=
  (opcode == opFirmware && params == []) || (opcode == opSam && params == samParams) ||
    (opcode == opListTarget && params.length == 2 && params.head? == some maxTargets)

/-- The operand checks, instruction by instruction. -/
def Instr.wf : Instr → Bool
  | .encodeCommand _ _ => true
  | .decodeAck _ => true
  | .decodeResponse _ _ => true
  | .clearAndWrite _ => true
  | .readExactAvailable maxCount => decide (1 ≤ maxCount)
  | .waitForData _ => true
  | .resetSequence => true
  | .initSession => true
  | .wakeup => true
  | .exchange _ _ _ _ => true
  | .call _ _ _ _ => true
  | .getFirmwareVersion => true
  | .samConfiguration => true
  | .readTarget => true
  | .trackerStep raw => isRawResult raw
  | .poll => true
  | .formatUid uid => isTagUid uid
  | .frameCommand opcode params => decide (params.length ≤ maxParams) && !isNamedCommand opcode params
  | .frameResponse zeros _ results _ => decide (1 ≤ zeros) && decide (results.length ≤ 253)
  | .frameAck => true
  | .wakeBytes n55 n00 => decide (1 ≤ n55) && decide (1 ≤ n00)
  | .cmdGetFirmwareVersion => true
  | .cmdSamConfiguration => true
  | .cmdInListPassiveTarget _ => true

/-- The instruction's operands are of their types. -/
abbrev Instr.WellFormed (i : Instr) : Prop := i.wf = true

end Sys2Proof
end

