-- ==== Sys2Proof/Decode.lean ====
section
/-! DEFINITION. The byte layouts of 30_encoding (R60 to R69), the decoder from the request port and from the wire (R70 to
R73), and after it the encoder written from the same layouts. -/

namespace Sys2Proof

/-! ### Checksums and layouts -/

/-- `sum(b)` of spec 00_scope section 6.1: the sum of the elements, in nat. -/
def byteSum : Bytes → Nat
  | [] => 0
  | b :: bs => b.toNat + byteSum bs

/-- `neg8(x)` of spec 00_scope section 6.1: 8-bit two's-complement negation (R76a). -/
def neg8 (x : Nat) : Byte := BitVec.ofNat 8 ((256 - x % 256) % 256)

/-- The opcode echo, `(opcode + 1) mod 256` (R63, R76c, D13). -/
def echoOf (opcode : Byte) : Byte := BitVec.ofNat 8 ((opcode.toNat + 1) % 256)

/-- The information frame as the block emits it (R60, R61): `L` counts TFI and DATA. -/
def informationFrame (tfi : Byte) (data : Bytes) : Bytes :=
  [zeroByte, zeroByte, startByte, BitVec.ofNat 8 (data.length + 1), neg8 (data.length + 1), tfi] ++ data ++
    [neg8 (tfi.toNat + byteSum data), zeroByte]

/-- The command frame of R62. -/
def commandFrame (opcode : Byte) (params : Bytes) : Bytes := informationFrame tfiHost (opcode :: params)

/-- The response frame of R63, with `zeros` leading zero bytes and `trail` after DCS. -/
def responseFrame (zeros : Nat) (echo : Byte) (results trail : Bytes) : Bytes :=
  List.replicate zeros zeroByte ++
    [startByte, BitVec.ofNat 8 (results.length + 2), neg8 (results.length + 2), tfiDevice, echo] ++ results ++
    [neg8 (tfiDevice.toNat + echo.toNat + byteSum results)] ++ trail

/-- The fixed ACK pattern (R64). -/
def ackBytes : Bytes := [0x00#8, 0x00#8, 0xFF#8, 0x00#8, 0xFF#8, 0x00#8]

/-- `rep(0x55, n55) ++ rep(0x00, n00)` (R65). -/
def wakePattern (n55 n00 : Nat) : Bytes := List.replicate n55 0x55#8 ++ List.replicate n00 0x00#8

/-- Parameters of list-one-passive-target (R69). -/
def listTargetParams (bb : Byte) : Bytes := [maxTargets, bb]

/-! ### The decoder -/

/-- How many bytes at the head equal `v`. -/
def leadingCount (v : Byte) : Bytes → Nat
  | [] => 0
  | b :: bs => if b = v then leadingCount v bs + 1 else 0

/-- The operation a request selects (R70). -/
def decodeRequest (r : Request) : Except DecodeError Instr :=
  match r.opSel.toNat with
  | 1 => .ok (.encodeCommand r.opcode r.bytes)
  | 2 => .ok (.decodeAck r.bytes)
  | 3 => .ok (.decodeResponse r.bytes r.opcode)
  | 4 => .ok (.clearAndWrite r.bytes)
  | 5 => .ok (.readExactAvailable r.count)
  | 6 => .ok (.waitForData r.timeout)
  | 7 => .ok .resetSequence
  | 8 => .ok .initSession
  | 9 => .ok .wakeup
  | 10 => .ok (.exchange r.opcode r.bytes r.count r.timeout)
  | 11 => .ok (.call r.opcode r.bytes r.count r.timeout)
  | 12 => .ok .getFirmwareVersion
  | 13 => .ok .samConfiguration
  | 14 => .ok .readTarget
  | 16 => .ok (.trackerStep r.raw)
  | 17 => .ok .poll
  | 18 => .ok (.formatUid r.bytes)
  | _ => .error (.unknownOpSel r.opSel)

/-- Reads a wake-up preamble (R65): a run of `0x55`, then a run of `0x00` to the end, neither empty. -/
def parseWake (bs : Bytes) : Option Instr :=
  let n55 := leadingCount 0x55#8 bs
  let n00 := bs.length - n55
  if 1 ≤ n55 ∧ 1 ≤ n00 ∧ bs = wakePattern n55 n00 then some (.wakeBytes n55 n00) else none

/-- Reads a command frame (R62): every byte is as the opcode and parameters in it demand. -/
def parseCommand (bs : Bytes) : Option Instr :=
  let opcode := bs.getD 6 zeroByte
  let params := (bs.drop 7).take (bs.length - 9)
  if params.length ≤ maxParams ∧ bs = commandFrame opcode params then some (.frameCommand opcode params) else none

/-- Reads a response frame (R63): LEN tells how many result bytes there are (R74). -/
def parseResponse (bs : Bytes) : Option Instr :=
  let zeros := leadingCount zeroByte bs
  let r := (bs.getD (zeros + 1) zeroByte).toNat - 2
  let echo := bs.getD (zeros + 4) zeroByte
  let results := (bs.drop (zeros + 5)).take r
  let trail := bs.drop (zeros + 6 + r)
  if 1 ≤ zeros ∧ bs = responseFrame zeros echo results trail then some (.frameResponse zeros echo results trail)
  else none

/-- The wire pattern some bytes are (R62 to R69); a row that fixes more bytes goes before one that fixes fewer. -/
def decodeWire (bs : Bytes) : Except DecodeError Instr :=
  if bs = ackBytes then .ok .frameAck
  else if bs = commandFrame opFirmware [] then .ok .cmdGetFirmwareVersion
  else if bs = commandFrame opSam samParams then .ok .cmdSamConfiguration
  else if bs = commandFrame opListTarget (listTargetParams (bs.getD 8 zeroByte)) then
    .ok (.cmdInListPassiveTarget (bs.getD 8 zeroByte))
  else
    match parseCommand bs with
    | some i => .ok i
    | none =>
      match parseWake bs with
      | some i => .ok i
      | none =>
        match parseResponse bs with
        | some i => .ok i
        | none => .error .notAWirePattern

/-- The decoder: total, rejecting by name. -/
def decode : Code → Except DecodeError Instr
  | .request r => decodeRequest r
  | .wire bs => decodeWire bs

/-! ### The encoder -/

/-- A request with its operation select (R70) and no operand. -/
def Request.bare (sel : BitVec 5) : Request :=
  { opSel := sel, opcode := 0x00#8, bytes := [], count := 0, timeout := 0, raw := none }

/-- The request or the wire bytes of an instruction, from the tables of R70 and R62 to R69. -/
def encode : Instr → Code
  | .encodeCommand opcode params => .request { Request.bare 0b00001#5 with opcode := opcode, bytes := params }
  | .decodeAck bytes => .request { Request.bare 0b00010#5 with bytes := bytes }
  | .decodeResponse bytes expected => .request { Request.bare 0b00011#5 with bytes := bytes, opcode := expected }
  | .clearAndWrite out => .request { Request.bare 0b00100#5 with bytes := out }
  | .readExactAvailable maxCount => .request { Request.bare 0b00101#5 with count := maxCount }
  | .waitForData timeout => .request { Request.bare 0b00110#5 with timeout := timeout }
  | .resetSequence => .request (Request.bare 0b00111#5)
  | .initSession => .request (Request.bare 0b01000#5)
  | .wakeup => .request (Request.bare 0b01001#5)
  | .exchange opcode params n timeout =>
    .request { Request.bare 0b01010#5 with opcode := opcode, bytes := params, count := n, timeout := timeout }
  | .call opcode params n timeout =>
    .request { Request.bare 0b01011#5 with opcode := opcode, bytes := params, count := n, timeout := timeout }
  | .getFirmwareVersion => .request (Request.bare 0b01100#5)
  | .samConfiguration => .request (Request.bare 0b01101#5)
  | .readTarget => .request (Request.bare 0b01110#5)
  | .trackerStep raw => .request { Request.bare 0b10000#5 with raw := raw }
  | .poll => .request (Request.bare 0b10001#5)
  | .formatUid uid => .request { Request.bare 0b10010#5 with bytes := uid }
  | .frameCommand opcode params => .wire (commandFrame opcode params)
  | .frameResponse zeros echo results trail => .wire (responseFrame zeros echo results trail)
  | .frameAck => .wire ackBytes
  | .wakeBytes n55 n00 => .wire (wakePattern n55 n00)
  | .cmdGetFirmwareVersion => .wire (commandFrame opFirmware [])
  | .cmdSamConfiguration => .wire (commandFrame opSam samParams)
  | .cmdInListPassiveTarget bb => .wire (commandFrame opListTarget (listTargetParams bb))

/-! ### The opcode table's words -/

/-- The `k` bytes of a number, least significant byte first. -/
def bytesOfWord : Nat → Nat → Bytes
  | 0, _ => []
  | k + 1, w => BitVec.ofNat 8 w :: bytesOfWord k (w / 256)

/-- What a word of the opcode table is laid out as (log entry 17): one byte below 32 is a request with that `op_sel` and
operand lanes of zeros; any other word is the bytes of a wire pattern, the preamble's first byte followed by one zero
byte, since its run of zeros is not in the table's bits. -/
def codeOfTableWord (nbits w : Nat) : Code :=
  if nbits ≤ 8 ∧ w < 32 then .request (Request.bare (BitVec.ofNat 5 w))
  else if nbits ≤ 8 then .wire (bytesOfWord 1 w ++ [zeroByte])
  else .wire (bytesOfWord ((nbits + 7) / 8) w)

/-- The instruction the decoder reads from a word of the opcode table. -/
def decodeTableWord (nbits w : Nat) : Option Instr :=
  match decode (codeOfTableWord nbits w) with
  | .ok i => some i
  | .error _ => none

end Sys2Proof
end

