-- ==== Sys2Proof/Machine/State.lean ====
section
/-! DEFINITION. The state as plain data (10_state R10 to R24), the result values of the operations (30_encoding R75,
60_exceptions R191), how a step can stop, and the state after block reset (R24). -/

namespace Sys2Proof.Machine

/-! ### Enumerations -/

/-- States of the session machine (10_state R11). -/
inductive SessionState where
  | uninitialized
  | awaitingWakeup
  | ready
  | busy
  | faulted
  deriving DecidableEq, Repr

/-- The thirteen error kinds, in the order of their codes 1 to 13 (60_exceptions R191, 10_state R23). -/
inductive ErrorKind where
  | invalidParameterCount
  | missingStartCode
  | lengthChecksumMismatch
  | dataChecksumMismatch
  | unexpectedResponse
  | truncatedFrame
  | badAck
  | noData
  | timeout
  | writeFailed
  | initFailed
  | refused
  | configurationError
  deriving DecidableEq, Repr

/-- Level of the reset line (10_state R18). -/
inductive Level where
  | low
  | high
  deriving DecidableEq, Repr

/-- `PresenceState` (10_state R20). -/
inductive Presence where
  | absent
  | present (uid : Bytes)
  deriving DecidableEq, Repr

/-- `PresenceEvent` (43_tracker R169). -/
inductive PresenceEvent where
  | tagAppeared (uid : Bytes)
  | tagChanged (old new : Bytes)
  | tagRemoved (uid : Bytes)
  deriving DecidableEq, Repr

/-! ### Results -/

/-- Result of `CLEAR_AND_WRITE` (41_transport R110). -/
inductive WriteResult where
  | writeOk
  | writeFailed
  deriving DecidableEq, Repr

/-- `ExchangeResult` (42_session R140). -/
inductive ExchangeResult where
  | payload (p : Bytes)
  | noResponse
  | writeFailed
  | violation (k : ErrorKind)
  | badRequest (k : ErrorKind)
  deriving DecidableEq, Repr

/-- `CallResult` (42_session R145). -/
inductive CallResult where
  | ok (p : Bytes)
  | noResponse
  | protocolViolation (k : ErrorKind)
  | refused
  | badRequest (k : ErrorKind)
  deriving DecidableEq, Repr

/-- The four firmware bytes, in the order of the result (30_encoding R67); the block gives them no meaning. -/
structure FwVersion where
  ic : Byte
  version : Byte
  revision : Byte
  support : Byte
  deriving DecidableEq, Repr

/-- Result of `INITIALIZE` (42_session R130). -/
inductive InitResult where
  | initOk (v : FwVersion)
  | initFailed
  | refused
  deriving DecidableEq, Repr

/-- Result of `GET_FIRMWARE_VERSION` (42_session R150): its own, or the result of the call it makes, unchanged. -/
inductive FwResult where
  | fwOk (v : FwVersion)
  | noResponse
  | other (r : CallResult)
  deriving DecidableEq, Repr

/-- `PollStatus` (42_session R155). -/
inductive PollStatus where
  | statusOk
  | statusViolation (k : ErrorKind)
  | statusRefused
  deriving DecidableEq, Repr

/-- The result value the request port returns (D1, R75, R239). -/
inductive OpResult where
  /-- `ENCODE_COMMAND`. -/
  | encoded (r : Except ErrorKind Bytes)
  /-- `DECODE_ACK`. -/
  | ack (b : Bool)
  /-- `DECODE_RESPONSE`. -/
  | decoded (r : Except ErrorKind Bytes)
  /-- `CLEAR_AND_WRITE`, and a transmitted wire pattern. -/
  | written (r : WriteResult)
  /-- `READ_EXACT_AVAILABLE`. -/
  | got (b : Bytes)
  /-- `WAIT_FOR_DATA`. -/
  | ready (b : Bool)
  /-- An operation that returns nothing (`RESET_SEQUENCE`, `WAKEUP`, `SAM_CONFIGURATION`) has ended. -/
  | done
  /-- `INITIALIZE`. -/
  | initResult (r : InitResult)
  /-- `EXCHANGE`. -/
  | exchanged (r : ExchangeResult)
  /-- `CALL`. -/
  | called (r : CallResult)
  /-- `GET_FIRMWARE_VERSION`. -/
  | firmware (r : FwResult)
  /-- `READ_TARGET`. -/
  | target (uid : Option Bytes) (status : PollStatus)
  /-- `TRACKER_STEP`. -/
  | event (e : Option PresenceEvent)
  /-- `POLL`. -/
  | polled (e : Option PresenceEvent) (status : PollStatus)
  /-- `FORMAT_UID`, as its characters. -/
  | text (cs : List Char)
  /-- An `op_sel` outside the table (R70, R72). -/
  | refused
  deriving DecidableEq, Repr

/-! ### State -/

/-- What Transport owns (10_state R16 to R18), and beside it the environment's draws to come. -/
structure Line where
  /-- Received and not yet read, oldest first (R16). -/
  rxbuf : Bytes
  /-- Every byte written since block reset (R17, bookkeeping). -/
  txlog : Bytes
  /-- The reset line (R18). -/
  rstLine : Level
  /-- Completed reset sequences (R18, bookkeeping). -/
  rstPulses : Nat
  /-- The MODEL's: the environment script for writes, next draw first (R44; 95_test_vectors `W:`). -/
  writeDraws : List WriteDraw
  /-- The MODEL's: the environment script for waits and reads, next draw first (R44; 95_test_vectors `WAIT:`, `READ:`). -/
  arrivals : List Bytes
  /-- The MODEL's: counter the opaque draws are applied to once a script is empty; nothing rests on its value. -/
  freeCount : Nat
  deriving DecidableEq, Repr

/-- What TagPresenceTracker owns (10_state R20, R21). -/
structure Tracker where
  /-- R20. -/
  presence : Presence
  /-- R21. -/
  missCnt : Nat
  deriving DecidableEq, Repr

/-- One move of an agent outside the block, each taken between operations (00_scope R7). -/
inductive Move where
  /-- The host presents a request, or a wire pattern passes on its channel. -/
  | present (c : Code)
  /-- The environment appends bytes to the receive buffer (20_memory R44). -/
  | arrive (bs : Bytes)
  /-- The parameters are given new values (D4). -/
  | configure (p : Params)
  deriving DecidableEq, Repr

/-- The block's state between two operations, and what the model holds beside it. -/
structure State where
  /-- R11. -/
  sessionState : SessionState
  /-- R12. -/
  faultKind : Option ErrorKind
  /-- R16, R17, R18. -/
  line : Line
  /-- R20, R21. -/
  tracker : Tracker
  /-- The control inputs (R15, 00_scope R6). -/
  params : Params
  /-- The MODEL's: the moves still to come, next first (95_test_vectors section 3). The block keeps no queue (R158). -/
  script : List Move
  /-- The MODEL's: the last result on the request port (D1, R239). -/
  result : Option OpResult
  /-- The MODEL's: counter the opaque TagUIDs are applied to; nothing rests on its value (log entry 22). -/
  uidCount : Nat
  deriving DecidableEq, Repr

/-! ### How a step can stop -/

/-- No operation stops the block: "An error in this block is a value returned by an operation, never a transfer of
control" (60_exceptions R190), so no fault exists. -/
inductive Fault where
  deriving DecidableEq, Repr

/-- Why the model gives a move no meaning. -/
inductive Refusal where
  /-- Raised by exec alone, for an instruction without a meaning yet. Safe. -/
  | notModelled (mnemonic : String)
  /-- Raised by step when a wire move carries bytes that are none of the seven patterns (30_encoding R62 to R69). Safe:
  arbitrary received bytes are the move `arrive`. -/
  | notAWirePattern
  /-- Raised by step when the parameters offered are ones "the model's configuration type should exclude"
  (93_implementation_defined section 2). Safe. -/
  | invalidParameters
  deriving DecidableEq, Repr

/-! ### Reset -/

/-- Transport after block reset (R24): `rxbuf` is unspecified, a free value (D34). -/
def Line.reset : Line where
  rxbuf := Config.rxbufAtReset
  txlog := []
  rstLine := .high
  rstPulses := 0
  writeDraws := []
  arrivals := []
  freeCount := 0

/-- The tracker after block reset (R24). -/
def Tracker.reset : Tracker where
  presence := .absent
  missCnt := 0

/-- The block after block reset (R24), with the OPEN parameters it is constructed with (00_scope R6). -/
def State.reset : State where
  sessionState := .uninitialized
  faultKind := none
  line := Line.reset
  tracker := Tracker.reset
  params := Params.reset
  script := []
  result := none
  uidCount := 0

end Sys2Proof.Machine
end

