-- ==== Sys2Proof/Machine/Operands.lean ====
section
/-! DEFINITION. The operand forms of the operations: the result-byte layouts the composite operations unpack (30_encoding
R67, R69), and the wake-up bytes (R65). -/

namespace Sys2Proof.Machine

/-- `WAKE_BYTES` for the configured counts (R65). -/
def wakeBytesOf (p : Params) : Bytes := wakePattern p.wake55Count p.wake00Count

/-- `(IC, version, revision, support)`: the first four result bytes, if there are four (R67, R130, R150). -/
def fwVersionOf : Bytes → Option FwVersion
  | ic :: version :: revision :: support :: _ => some ⟨ic, version, revision, support⟩
  | _ => none

/-- The UID in the result bytes of list-one-passive-target (42_session R155, 30_encoding R69): `offset` is
`UID_LEN_OFFSET`. -/
def uidOf (offset : Nat) (p : Bytes) : Option Bytes :=
  if p.length < 1 ∨ p.getD 0 0x00#8 ≠ 0x01#8 then none
  else if p.length < offset + 1 then none
  else
    let u := (p.getD offset 0x00#8).toNat
    if p.length < offset + 1 + u then none
    else if u = 4 ∨ u = 7 ∨ u = 10 then some ((p.drop (offset + 1)).take u)
    else none

end Sys2Proof.Machine
end

