-- ==== Sys2Proof/Machine/Ops.lean ====
section
/-! DEFINITION. The named operations over the state that the operations share: the reset line, the receive buffer, the
environment's draws, the result port, entering and leaving `Faulted`, and the moves that are no instruction. -/

namespace Sys2Proof.Machine

/-! ### Transport's storage -/

/-- The environment, or a wait or read slice, appends at the tail of `rxbuf` (R16). -/
def Line.receive (l : Line) (bs : Bytes) : Line := { l with rxbuf := l.rxbuf ++ bs }

/-- "discards any bytes currently buffered for reading" (R110). -/
def Line.discard (l : Line) : Line := { l with rxbuf := [] }

/-- Bytes go out on the serial line (R17). -/
def Line.transmit (l : Line) (bs : Bytes) : Line := { l with txlog := l.txlog ++ bs }

/-- Removes the oldest `k` bytes of `rxbuf` (R113). -/
def Line.consume (l : Line) (k : Nat) : Line := { l with rxbuf := l.rxbuf.drop k }

/-- Drives the reset line to a level (R18). -/
def Line.drive (l : Line) (v : Level) : Line := { l with rstLine := v }

/-- Counts a completed reset sequence (R18). -/
def Line.countPulse (l : Line) : Line := { l with rstPulses := l.rstPulses + 1 }

/-! ### The environment's draws (20_memory R44) -/

/-- The next draw at a write: the script's, else a free value. -/
def Line.drawWrite (l : Line) : WriteDraw × Line :=
  match l.writeDraws with
  | d :: ds => (d, { l with writeDraws := ds })
  | [] => (Config.freeWrite l.freeCount, { l with freeCount := l.freeCount + 1 })

/-- The next draw at a wait or a read: the script's, else a free value. -/
def Line.drawArrival (l : Line) : Bytes × Line :=
  match l.arrivals with
  | bs :: rest => (bs, { l with arrivals := rest })
  | [] => (Config.freeArrival l.freeCount, { l with freeCount := l.freeCount + 1 })

/-! ### Session, tracker and result port -/

/-- Writes `session_state` (R11). -/
def State.setSession (s : State) (v : SessionState) : State := { s with sessionState := v }

/-- Writes the whole of Transport's part. -/
def State.setLine (s : State) (l : Line) : State := { s with line := l }

/-- Writes the whole of the tracker's part. -/
def State.setTracker (s : State) (t : Tracker) : State := { s with tracker := t }

/-- The raw poll result a tracker step works on (43_tracker R169): the operand where it is one, and for a sequence of
another length, for which the spec states no result, a free TagUID in its place (log entry 22). -/
def State.drawRaw (s : State) (raw : Option Bytes) : Option Bytes × State :=
  if isRawResult raw then (raw, s)
  else (some (Config.freeUid s.uidCount).bytes, { s with uidCount := s.uidCount + 1 })

/-- The operation's result is on the request port (D1). -/
def State.deliver (s : State) (r : OpResult) : State := { s with result := some r }

/-- Entering `Faulted` (60_exceptions R197): `session_state` and `fault_kind` are written in one step, and "Nothing else
is saved or changed". -/
def State.enterFaulted (s : State) (k : ErrorKind) : State :=
  { s with sessionState := .faulted, faultKind := some k }

/-- The way out of `Faulted` begins by clearing the latch (42_session R130, 10_state R12). -/
def State.clearFault (s : State) : State := { s with faultKind := none }

/-! ### Moves that are no instruction -/

/-- The agents' remaining moves. -/
def State.withScript (s : State) (ms : List Move) : State := { s with script := ms }

/-- No request is pending: "between operations it is idle and keeps all its state" (60_exceptions R210). -/
def State.idle (s : State) : State := s

/-- Between operations the environment "may also append anything" (20_memory R44). -/
def State.arrive (s : State) (bs : Bytes) : State := s.setLine (s.line.receive bs)

/-- New parameters between operations take effect at the next one (D4); a configuration the spec excludes is refused
(93_implementation_defined section 2). A threshold lowered to or below `miss_cnt` while a tag is present, where D4 and the
bound of R21 and R76(d) disagree, leaves the tracker as it is: the next miss counts on and removes the tag (log entry 23,
DESIGN CHOICE). -/
def State.configure (s : State) (p : Params) : Host.Outcome State Fault Refusal :=
  if p.Valid then .next { s with params := p } else .refused .invalidParameters

/-- Code that is no instruction. An unknown `op_sel` returns `Refused` with no state change (30_encoding R70, R72). -/
def State.undecoded (s : State) : DecodeError → Host.Outcome State Fault Refusal
  | .unknownOpSel _ => .next (s.deliver .refused)
  | .notAWirePattern => .refused .notAWirePattern

end Sys2Proof.Machine
end

