-- ==== Sys2Proof/Machine/FrameCodec.lean ====
section
/-! DEFINITION. FrameCodec (40_framecodec R90, R94, R96): three pure functions and the instructions that return their
values. -/

namespace Sys2Proof.Machine

/-! ### The functions -/

/-- `encode_command` (R90): the parameter count is checked first. -/
def encodeCommand (opcode : Byte) (params : Bytes) : Except ErrorKind Bytes :=
  if params.length > maxParams then .error .invalidParameterCount else .ok (commandFrame opcode params)

/-- `decode_ack` (R94): exactly the six bytes of R64. -/
def decodeAck (b : Bytes) : Bool := b == ackBytes

/-- Step 4 of `decode_response` (R96): `window` is TFI, DATA, DCS, already summed; the result is its LEN - 2 result
bytes. -/
def decodePayload (len : Nat) (window : Bytes) (expectedOpcode : Byte) : Except ErrorKind Bytes :=
  if len < 2 then .error .unexpectedResponse
  else if window.getD 0 0x00#8 ≠ tfiDevice then .error .unexpectedResponse
  else if window.getD 1 0x00#8 ≠ echoOf expectedOpcode then .error .unexpectedResponse
  else .ok ((window.drop 2).take (len - 2))

/-- Step 3 of `decode_response` (R96): `rest` begins at TFI; the window is the LEN + 1 bytes from there. -/
def decodeWindow (len : Nat) (rest : Bytes) (expectedOpcode : Byte) : Except ErrorKind Bytes :=
  if rest.length < len + 1 then .error .truncatedFrame
  else if byteSum (rest.take (len + 1)) % 256 ≠ 0 then .error .dataChecksumMismatch
  else decodePayload len (rest.take (len + 1)) expectedOpcode

/-- Step 2 of `decode_response` (R96): what follows the start code begins with LEN and LCS. -/
def decodeHeader (rest : Bytes) (expectedOpcode : Byte) : Except ErrorKind Bytes :=
  match rest with
  | len :: lcs :: rest' =>
    if (len.toNat + lcs.toNat) % 256 ≠ 0 then .error .lengthChecksumMismatch
    else decodeWindow len.toNat rest' expectedOpcode
  | _ => .error .truncatedFrame

/-- The byte after the leading zeros (R96): it is there (D10) and is `0xFF`. -/
def decodeStart (rest : Bytes) (expectedOpcode : Byte) : Except ErrorKind Bytes :=
  match rest with
  | [] => .error .missingStartCode
  | x :: rest' => if x ≠ startByte then .error .missingStartCode else decodeHeader rest' expectedOpcode

/-- `decode_response` (R96). Step 1 skips the leading zeros, of which there is at least one (D9). -/
def decodeResponse (b : Bytes) (expectedOpcode : Byte) : Except ErrorKind Bytes :=
  let zeros := leadingCount zeroByte b
  if zeros = 0 then .error .missingStartCode else decodeStart (b.drop zeros) expectedOpcode

/-! ### The instructions -/

/-- `ENCODE_COMMAND` (R90). -/
def execEncodeCommand (opcode : Byte) (params : Bytes) (s : State) : Host.Outcome State Fault Refusal :=
  .next (s.deliver (.encoded (encodeCommand opcode params)))

/-- `DECODE_ACK` (R94). -/
def execDecodeAck (bytes : Bytes) (s : State) : Host.Outcome State Fault Refusal :=
  .next (s.deliver (.ack (decodeAck bytes)))

/-- `DECODE_RESPONSE` (R96). -/
def execDecodeResponse (bytes : Bytes) (expectedOpcode : Byte) (s : State) : Host.Outcome State Fault Refusal :=
  .next (s.deliver (.decoded (decodeResponse bytes expectedOpcode)))

end Sys2Proof.Machine
end

