-- ==== Sys2Proof/Machine/Transport.lean ====
section
/-! DEFINITION. Transport (41_transport R110, R113, R116, R119): the four primitives, each with its one draw point, over
Transport's own part of the state, and the instructions that run one. -/

namespace Sys2Proof.Machine

/-! ### The primitives -/

/-- `clear_and_write` (R110): the discard is first, always; then the draw decides. What arrives after the discard stays
(R110 corner case, R44). On failure an unspecified prefix of `out` has gone out (D17). -/
def clearAndWrite (out : Bytes) (l : Line) : WriteResult × Line :=
  let d := l.discard.drawWrite
  if d.1.ok then (.writeOk, (d.2.receive d.1.arrived).transmit out)
  else (.writeFailed, (d.2.receive d.1.arrived).transmit (out.take d.1.sent))

/-- `read_exact_available` (R113): the oldest bytes present at the end of the slice, at most `maxCount`. -/
def readExactAvailable (maxCount : Nat) (l : Line) : Bytes × Line :=
  let d := l.drawArrival
  let full := d.2.receive d.1
  (full.rxbuf.take maxCount, full.consume maxCount)

/-- `wait_for_data` (R116): whether anything is there when the wait ends; the duration does not enter the model (R236). -/
def waitForData (_timeout : Nat) (l : Line) : Bool × Line :=
  let d := l.drawArrival
  let full := d.2.receive d.1
  (decide (0 < full.rxbuf.length), full)

/-- `reset_sequence` (R119): low, then high. -/
def resetSequence (l : Line) : Line := ((l.drive .low).drive .high).countPulse

/-! ### The instructions -/

/-- `CLEAR_AND_WRITE` (R110). -/
def execClearAndWrite (out : Bytes) (s : State) : Host.Outcome State Fault Refusal :=
  .next ((s.setLine (clearAndWrite out s.line).2).deliver (.written (clearAndWrite out s.line).1))

/-- `READ_EXACT_AVAILABLE` (R113). -/
def execReadExactAvailable (maxCount : Nat) (s : State) : Host.Outcome State Fault Refusal :=
  .next ((s.setLine (readExactAvailable maxCount s.line).2).deliver (.got (readExactAvailable maxCount s.line).1))

/-- `WAIT_FOR_DATA` (R116). -/
def execWaitForData (timeout : Nat) (s : State) : Host.Outcome State Fault Refusal :=
  .next ((s.setLine (waitForData timeout s.line).2).deliver (.ready (waitForData timeout s.line).1))

/-- `RESET_SEQUENCE` (R119). -/
def execResetSequence (s : State) : Host.Outcome State Fault Refusal :=
  .next ((s.setLine (resetSequence s.line)).deliver .done)

end Sys2Proof.Machine
end

