-- ==== Sys2Proof/Machine/Session.lean ====
section
/-! DEFINITION. PN532Session (42_session R129 to R158): the exchange, the wake-up, initialization, the call with its
failure policy, and the two composite operations. -/

namespace Sys2Proof.Machine

/-! ### EXCHANGE (R140) -/

/-- Steps 5 to 7 of R140: wait for the response, read at most `n + 9` bytes, decode. -/
def awaitResponse (opcode : Byte) (n timeout : Nat) (l : Line) : ExchangeResult × Line :=
  let w := waitForData timeout l
  if w.1 = false then (.noResponse, w.2)
  else
    let b := readExactAvailable (n + 9) w.2
    if b.1.length = 0 then (.noResponse, b.2)
    else
      match decodeResponse b.1 opcode with
      | .error k => (.violation k, b.2)
      | .ok p => (.payload p, b.2)

/-- Steps 3 and 4 of R140: wait, read at most 6 bytes, want the ACK; then the response. -/
def awaitAck (opcode : Byte) (n timeout : Nat) (l : Line) : ExchangeResult × Line :=
  let w := waitForData timeout l
  if w.1 = false then (.noResponse, w.2)
  else
    let a := readExactAvailable 6 w.2
    if a.1.length = 0 then (.noResponse, a.2)
    else if decodeAck a.1 = false then (.violation .badAck, a.2)
    else awaitResponse opcode n timeout a.2

/-- `EXCHANGE` (R140): it reads and writes Transport's part of the state and nothing else. -/
def exchange (opcode : Byte) (params : Bytes) (n timeout : Nat) (l : Line) : ExchangeResult × Line :=
  match encodeCommand opcode params with
  | .error k => (.badRequest k, l)
  | .ok f =>
    let w := clearAndWrite f l
    match w.1 with
    | .writeFailed => (.writeFailed, w.2)
    | .writeOk => awaitAck opcode n timeout w.2

/-! ### WAKEUP and SAM_CONFIGURATION (R135, R152) -/

/-- `SAM_CONFIGURATION` (R152): the outcome is discarded, whatever it is. -/
def samConfiguration (p : Params) (l : Line) : Line :=
  (exchange opSam samParams samResultLen p.cmdTimeout l).2

/-- `WAKEUP` (R135): a failed write of the wake-up bytes is ignored (D18). -/
def wakeup (p : Params) (l : Line) : Line :=
  samConfiguration p (clearAndWrite (wakeBytesOf p) l).2

/-! ### INITIALIZE (R130) -/

/-- The firmware-version probe succeeded: a payload of at least four bytes (R130, D20). -/
def probeOf : ExchangeResult → Option FwVersion
  | .payload p => fwVersionOf p
  | .noResponse => none
  | .writeFailed => none
  | .violation _ => none
  | .badRequest _ => none

/-- Up to `k` attempts of wake-up and firmware probe (R130). -/
def attempts (p : Params) : Nat → Line → Option FwVersion × Line
  | 0, l => (none, l)
  | k + 1, l =>
    let r := exchange opFirmware [] fwResultLen p.cmdTimeout (wakeup p l)
    match probeOf r.1 with
    | some v => (some v, r.2)
    | none => attempts p k r.2

/-- The end of `INITIALIZE` (R130): `Ready`, or `Faulted` when every attempt failed. -/
def finishInit (r : Option FwVersion) (s : State) : InitResult × State :=
  match r with
  | some v => (.initOk v, s.setSession .ready)
  | none => (.initFailed, s.enterFaulted .initFailed)

/-- `INITIALIZE` (R130). -/
def runInitialize (s : State) : InitResult × State :=
  if s.sessionState = .awaitingWakeup ∨ s.sessionState = .busy then (.refused, s)
  else
    let s1 := (s.clearFault.setLine (resetSequence s.line)).setSession .awaitingWakeup
    let r := attempts s1.params (1 + wakeupRetries) s1.line
    finishInit r.1 (s1.setLine r.2)

/-! ### CALL (R145) -/

/-- What `CALL` does with the result of its exchange (R145): `s` is the state at the end of the exchange. -/
def finishCall (r : ExchangeResult) (s : State) : CallResult × State :=
  match r with
  | .payload p => (.ok p, s.setSession .ready)
  | .noResponse => (.noResponse, s.setSession .ready)
  | .writeFailed => (.noResponse, (s.setLine (wakeup s.params s.line)).setSession .ready)
  | .violation k => (.protocolViolation k, s.enterFaulted k)
  | .badRequest k => (.badRequest k, s.setSession .ready)

/-- `CALL` (R145). -/
def runCall (opcode : Byte) (params : Bytes) (n timeout : Nat) (s : State) : CallResult × State :=
  if s.sessionState ≠ .ready then (.refused, s)
  else
    let r := exchange opcode params n timeout s.line
    finishCall r.1 ((s.setSession .busy).setLine r.2)

/-! ### GET_FIRMWARE_VERSION and READ_TARGET (R150, R155) -/

/-- Unpacking of a firmware answer (R150): a sound response that is too short is "no response" (D28). -/
def fwResultOf : CallResult → FwResult
  | .ok p =>
    match fwVersionOf p with
    | some v => .fwOk v
    | none => .noResponse
  | .noResponse => .noResponse
  | .protocolViolation k => .other (.protocolViolation k)
  | .refused => .other .refused
  | .badRequest k => .other (.badRequest k)

/-- `GET_FIRMWARE_VERSION` (R150). -/
def runGetFirmware (s : State) : FwResult × State :=
  let r := runCall opFirmware [] fwResultLen s.params.cmdTimeout s
  (fwResultOf r.1, r.2)

/-- What `READ_TARGET` makes of its call (R155). `BadRequest` cannot occur (two parameters); the branch makes the
function total (log entry 10). -/
def targetOf (offset : Nat) : CallResult → Option Bytes × PollStatus
  | .ok p => (uidOf offset p, .statusOk)
  | .noResponse => (none, .statusOk)
  | .protocolViolation k => (none, .statusViolation k)
  | .refused => (none, .statusRefused)
  | .badRequest _ => (none, .statusOk)

/-- `READ_TARGET` (R155). -/
def runReadTarget (s : State) : (Option Bytes × PollStatus) × State :=
  let r := runCall opListTarget (listTargetParams s.params.baudRateCode) targetResultLen s.params.shortTimeout s
  (targetOf s.params.uidLenOffset r.1, r.2)

/-! ### The instructions -/

/-- `INITIALIZE` (R130). -/
def execInitialize (s : State) : Host.Outcome State Fault Refusal :=
  .next ((runInitialize s).2.deliver (.initResult (runInitialize s).1))

/-- `WAKEUP` (R135). -/
def execWakeup (s : State) : Host.Outcome State Fault Refusal :=
  .next ((s.setLine (wakeup s.params s.line)).deliver .done)

/-- `EXCHANGE` (R140). -/
def execExchange (opcode : Byte) (params : Bytes) (n timeout : Nat) (s : State) : Host.Outcome State Fault Refusal :=
  .next ((s.setLine (exchange opcode params n timeout s.line).2).deliver
    (.exchanged (exchange opcode params n timeout s.line).1))

/-- `CALL` (R145). -/
def execCall (opcode : Byte) (params : Bytes) (n timeout : Nat) (s : State) : Host.Outcome State Fault Refusal :=
  .next ((runCall opcode params n timeout s).2.deliver (.called (runCall opcode params n timeout s).1))

/-- `GET_FIRMWARE_VERSION` (R150). -/
def execGetFirmwareVersion (s : State) : Host.Outcome State Fault Refusal :=
  .next ((runGetFirmware s).2.deliver (.firmware (runGetFirmware s).1))

/-- `SAM_CONFIGURATION` (R152). -/
def execSamConfiguration (s : State) : Host.Outcome State Fault Refusal :=
  .next ((s.setLine (samConfiguration s.params s.line)).deliver .done)

/-- `READ_TARGET` (R155). -/
def execReadTarget (s : State) : Host.Outcome State Fault Refusal :=
  .next ((runReadTarget s).2.deliver (.target (runReadTarget s).1.1 (runReadTarget s).1.2))

end Sys2Proof.Machine
end

