-- ==== Sys2Proof/Machine/Tracker.lean ====
section
/-! DEFINITION. TagPresenceTracker and the block-level operations (43_tracker R169 to R178). -/

namespace Sys2Proof.Machine

/-- A miss (R170, last two rows): counted only while `Present`; the step that reaches the threshold removes the tag and
leaves the counter where it is (D30). -/
def trackerMiss (threshold : Nat) (t : Tracker) : Option PresenceEvent × Tracker :=
  match t.presence with
  | .absent => (none, t)
  | .present u =>
    if t.missCnt + 1 ≥ threshold then (some (.tagRemoved u), { presence := .absent, missCnt := t.missCnt + 1 })
    else (none, { t with missCnt := t.missCnt + 1 })

/-- A hit (R170, first three rows): the counter is 0 after it; UIDs are compared as sequences (D43). -/
def trackerHit (uid : Bytes) (t : Tracker) : Option PresenceEvent × Tracker :=
  match t.presence with
  | .absent => (some (.tagAppeared uid), { presence := .present uid, missCnt := 0 })
  | .present u =>
    if uid = u then (none, { t with missCnt := 0 })
    else (some (.tagChanged u uid), { presence := .present uid, missCnt := 0 })

/-- `TRACKER_STEP` (R170). -/
def trackerStep (threshold : Nat) (raw : Option Bytes) (t : Tracker) : Option PresenceEvent × Tracker :=
  match raw with
  | some uid => trackerHit uid t
  | none => trackerMiss threshold t

/-- `POLL` (R175): a read, then exactly one tracker step. -/
def runPoll (s : State) : (Option PresenceEvent × PollStatus) × State :=
  let r := runReadTarget s
  let e := trackerStep r.2.params.threshold r.1.1 r.2.tracker
  ((e.1, r.1.2), r.2.setTracker e.2)

/-! ### FORMAT_UID (R178) -/

/-- `HEX[n]`, `n` below 16. -/
def hexDigit (n : Nat) : Char :=
  ['0', '1', '2', '3', '4', '5', '6', '7', '8', '9', 'A', 'B', 'C', 'D', 'E', 'F'].getD n '0'

/-- A byte as two upper-case digits. -/
def hexPair (b : Byte) : List Char := [hexDigit (b.toNat / 16), hexDigit (b.toNat % 16)]

/-- The pairs of the bytes after the first, each after its separator. -/
def hexTail : Bytes → List Char
  | [] => []
  | b :: bs => ':' :: (hexPair b ++ hexTail bs)

/-- `FORMAT_UID` (R178): pairs in UID order, `:` between two. -/
def formatUid : Bytes → List Char
  | [] => []
  | b :: bs => hexPair b ++ hexTail bs

/-! ### The instructions -/

/-- One tracker step on a raw poll result, and its event on the result port (R170). -/
def stepTracker (raw : Option Bytes) (s : State) : State :=
  (s.setTracker (trackerStep s.params.threshold raw s.tracker).2).deliver
    (.event (trackerStep s.params.threshold raw s.tracker).1)

/-- `TRACKER_STEP` (R170); for an operand that is no raw poll result, on a free TagUID (log entry 22). -/
def execTrackerStep (raw : Option Bytes) (s : State) : Host.Outcome State Fault Refusal :=
  .next (stepTracker (s.drawRaw raw).1 (s.drawRaw raw).2)

/-- `POLL` (R175). -/
def execPoll (s : State) : Host.Outcome State Fault Refusal :=
  .next ((runPoll s).2.deliver (.polled (runPoll s).1.1 (runPoll s).1.2))

/-- `FORMAT_UID` (R178). -/
def execFormatUid (uid : Bytes) (s : State) : Host.Outcome State Fault Refusal :=
  .next (s.deliver (.text (formatUid uid)))

end Sys2Proof.Machine
end

