-- ==== Sys2Proof/Machine/Wire.lean ====
section
/-! DEFINITION. The seven wire patterns as moves on the serial channels (30_encoding R62 to R69; log entry 4). A pattern
of the transmit channel goes out by the one operation that writes that channel (20_memory R40, 41_transport R110); a
pattern of the receive channel is appended to `rxbuf` by the environment (10_state R16, 20_memory R44). -/

namespace Sys2Proof.Machine

/-- Some bytes on the transmit channel. -/
def sendOnWire (bs : Bytes) (s : State) : State :=
  (s.setLine (clearAndWrite bs s.line).2).deliver (.written (clearAndWrite bs s.line).1)

/-- Some bytes on the receive channel: no operation runs, so no result is returned. -/
def arriveOnWire (bs : Bytes) (s : State) : State := s.arrive bs

/-- `FRAME_COMMAND` (R62). -/
def execFrameCommand (opcode : Byte) (params : Bytes) (s : State) : Host.Outcome State Fault Refusal :=
  .next (sendOnWire (commandFrame opcode params) s)

/-- `FRAME_RESPONSE` (R63). -/
def execFrameResponse (zeros : Nat) (echo : Byte) (results trail : Bytes) (s : State) :
    Host.Outcome State Fault Refusal :=
  .next (arriveOnWire (responseFrame zeros echo results trail) s)

/-- `FRAME_ACK` (R64). -/
def execFrameAck (s : State) : Host.Outcome State Fault Refusal := .next (arriveOnWire ackBytes s)

/-- `WAKE_BYTES` (R65). -/
def execWakeBytes (n55 n00 : Nat) (s : State) : Host.Outcome State Fault Refusal :=
  .next (sendOnWire (wakePattern n55 n00) s)

/-- `CMD_GET_FIRMWARE_VERSION` (R67). -/
def execCmdGetFirmwareVersion (s : State) : Host.Outcome State Fault Refusal :=
  .next (sendOnWire (commandFrame opFirmware []) s)

/-- `CMD_SAM_CONFIGURATION` (R68). -/
def execCmdSamConfiguration (s : State) : Host.Outcome State Fault Refusal :=
  .next (sendOnWire (commandFrame opSam samParams) s)

/-- `CMD_IN_LIST_PASSIVE_TARGET` (R69). -/
def execCmdInListPassiveTarget (bb : Byte) (s : State) : Host.Outcome State Fault Refusal :=
  .next (sendOnWire (commandFrame opListTarget (listTargetParams bb)) s)

end Sys2Proof.Machine
end

