-- ==== Sys2Proof/Machine/Dispatch.lean ====
section
/-! DEFINITION. One arm per row of spec/opcode_table.json. -/

namespace Sys2Proof.Machine

def exec (i : Instr) (s : State) : Host.Outcome State Fault Refusal :=
  match i with
  | .encodeCommand opcode params => Sys2Proof.Machine.execEncodeCommand opcode params s
  | .decodeAck bytes => Sys2Proof.Machine.execDecodeAck bytes s
  | .decodeResponse bytes expectedOpcode => Sys2Proof.Machine.execDecodeResponse bytes expectedOpcode s
  | .clearAndWrite out => Sys2Proof.Machine.execClearAndWrite out s
  | .readExactAvailable maxCount => Sys2Proof.Machine.execReadExactAvailable maxCount s
  | .waitForData timeout => Sys2Proof.Machine.execWaitForData timeout s
  | .resetSequence => Sys2Proof.Machine.execResetSequence s
  | .initSession => Sys2Proof.Machine.execInitialize s
  | .wakeup => Sys2Proof.Machine.execWakeup s
  | .exchange opcode params n timeout => Sys2Proof.Machine.execExchange opcode params n timeout s
  | .call opcode params n timeout => Sys2Proof.Machine.execCall opcode params n timeout s
  | .getFirmwareVersion => Sys2Proof.Machine.execGetFirmwareVersion s
  | .samConfiguration => Sys2Proof.Machine.execSamConfiguration s
  | .readTarget => Sys2Proof.Machine.execReadTarget s
  | .trackerStep raw => Sys2Proof.Machine.execTrackerStep raw s
  | .poll => Sys2Proof.Machine.execPoll s
  | .formatUid uid => Sys2Proof.Machine.execFormatUid uid s
  | .frameCommand opcode params => Sys2Proof.Machine.execFrameCommand opcode params s
  | .frameResponse zeros echo results trail => Sys2Proof.Machine.execFrameResponse zeros echo results trail s
  | .frameAck => Sys2Proof.Machine.execFrameAck s
  | .wakeBytes n55 n00 => Sys2Proof.Machine.execWakeBytes n55 n00 s
  | .cmdGetFirmwareVersion => Sys2Proof.Machine.execCmdGetFirmwareVersion s
  | .cmdSamConfiguration => Sys2Proof.Machine.execCmdSamConfiguration s
  | .cmdInListPassiveTarget bb => Sys2Proof.Machine.execCmdInListPassiveTarget bb s

end Sys2Proof.Machine
end

