-- ==== Sys2Proof/Machine/Step.lean ====
section
/-! DEFINITION. One step: the next move of the agents outside the block is taken, an operation running to its end
(00_scope R7, 10_state R14, D3). -/

namespace Sys2Proof.Machine

/-- One step. With no move to come the block is idle. -/
def step (s : State) : Host.Outcome State Fault Refusal :=
  match s.script with
  | [] => .next s.idle
  | .present c :: rest =>
    match decode c with
    | .ok i => exec i (s.withScript rest)
    | .error e => (s.withScript rest).undecoded e
  | .arrive bs :: rest => .next ((s.withScript rest).arrive bs)
  | .configure p :: rest => (s.withScript rest).configure p

/-- A word of the opcode table as the very next move (log entry 1: it stands for the host presenting it). -/
def State.withFetchWord (s : State) (nbits w : Nat) : State :=
  s.withScript (.present (codeOfTableWord nbits w) :: s.script)

end Sys2Proof.Machine
end

