-- ==== Sys2Proof/Machine/Flags.lean ====
section
/-! DEFINITION. The status outputs computed from the state (10_state R13), the numeric codes of the enumerations (R23), and
the class of each error kind (60_exceptions R191 to R196). -/

namespace Sys2Proof.Machine

/-! ### Status bits (R13) -/

/-- `busy`: an operation is in progress (R13). -/
def State.busy (s : State) : Bool := s.sessionState == .busy || s.sessionState == .awaitingWakeup

/-- `faulted` (R13). -/
def State.faulted (s : State) : Bool := s.sessionState == .faulted

/-- `tag_present` (R13). -/
def State.tagPresent (s : State) : Bool := s.tracker.presence != .absent

/-! ### Numeric codes (R23, the spec's own choice D35) -/

/-- `session_state[2:0]`. -/
def SessionState.code : SessionState → BitVec 3
  | .uninitialized => 0#3
  | .awaitingWakeup => 1#3
  | .ready => 2#3
  | .busy => 3#3
  | .faulted => 4#3

/-- `ErrorKind[3:0]`. -/
def ErrorKind.code : ErrorKind → BitVec 4
  | .invalidParameterCount => 1#4
  | .missingStartCode => 2#4
  | .lengthChecksumMismatch => 3#4
  | .dataChecksumMismatch => 4#4
  | .unexpectedResponse => 5#4
  | .truncatedFrame => 6#4
  | .badAck => 7#4
  | .noData => 8#4
  | .timeout => 9#4
  | .writeFailed => 10#4
  | .initFailed => 11#4
  | .refused => 12#4
  | .configurationError => 13#4

/-- `fault_kind` as its code, 0 for none. -/
def faultCode : Option ErrorKind → BitVec 4
  | none => 0#4
  | some k => k.code

/-- `event_kind[1:0]`, 0 for no event. -/
def eventCode : Option PresenceEvent → BitVec 2
  | none => 0#2
  | some (.tagAppeared _) => 1#2
  | some (.tagChanged _ _) => 2#2
  | some (.tagRemoved _) => 3#2

/-- `uid_len[3:0]`, 0 when `presence` is `Absent`. -/
def uidLenCode : Presence → BitVec 4
  | .absent => 0#4
  | .present uid => BitVec.ofNat 4 uid.length

/-! ### Classes of error kinds (R191) -/

/-- The class column of R191. -/
inductive ErrorClass where
  | callerError
  | protocolViolation
  | transient
  | handled
  | sessionFatal
  | notAWireError
  | construction
  deriving DecidableEq, Repr

/-- The class of a kind (R191 to R196, R204). -/
def ErrorKind.errorClass : ErrorKind → ErrorClass
  | .invalidParameterCount => .callerError
  | .missingStartCode => .protocolViolation
  | .lengthChecksumMismatch => .protocolViolation
  | .dataChecksumMismatch => .protocolViolation
  | .unexpectedResponse => .protocolViolation
  | .truncatedFrame => .protocolViolation
  | .badAck => .protocolViolation
  | .noData => .transient
  | .timeout => .transient
  | .writeFailed => .handled
  | .initFailed => .sessionFatal
  | .refused => .notAWireError
  | .configurationError => .construction

end Sys2Proof.Machine
end

