-- ==== Sys2Proof/Safety.lean ====
section
/-! DEFINITION. The terms in which claims are stated: the invariants of the state between operations, which operations the
host may request, how a command frame becomes the answer to it, and what a well-behaved environment sends. -/

namespace Sys2Proof.Machine

/-! ### Invariants -/

/-- What holds of every state between two operations. -/
structure State.Inv (s : State) : Prop where
  /-- "between operations `session_state` is one of `Uninitialized`, `Ready`, `Faulted`" (10_state R11). -/
  settled : s.sessionState = .uninitialized ∨ s.sessionState = .ready ∨ s.sessionState = .faulted
  /-- `fault_kind` is set in the step that writes `Faulted` and cleared by the operation that leaves it (R12). -/
  latched : s.faultKind.isSome = true ↔ s.sessionState = .faulted
  /-- What can be latched: a violation kind, or `InitFailed` (R12). -/
  kinds : ∀ k, s.faultKind = some k → k.errorClass = .protocolViolation ∨ k = .initFailed
  /-- The reset line rests high (R18). -/
  restsHigh : s.line.rstLine = .high
  /-- A present tag's UID is a TagUID (R20). -/
  uidValid : ∀ u, s.tracker.presence = .present u → isTagUid u = true
  /-- The parameters are ones the spec admits (70_reset_and_hazards R222). -/
  paramsValid : s.params.Valid

/-- The bound of the miss counter (10_state R21), for a threshold. -/
structure Tracker.Bounded (threshold : Nat) (t : Tracker) : Prop where
  le : t.missCnt ≤ threshold
  lt : t.presence ≠ .absent → t.missCnt < threshold

end Sys2Proof.Machine

namespace Sys2Proof

/-! ### Which operation is whose -/

/-- The column "Host-visible" of 30_encoding R70: `yes`. -/
def Instr.hostVisible : Instr → Bool
  | .encodeCommand _ _ => true
  | .decodeAck _ => true
  | .decodeResponse _ _ => true
  | .clearAndWrite _ => false
  | .readExactAvailable _ => false
  | .waitForData _ => false
  | .resetSequence => false
  | .initSession => true
  | .wakeup => false
  | .exchange _ _ _ _ => false
  | .call _ _ _ _ => true
  | .getFirmwareVersion => true
  | .samConfiguration => false
  | .readTarget => true
  | .trackerStep _ => true
  | .poll => true
  | .formatUid _ => true
  | .frameCommand _ _ => false
  | .frameResponse _ _ _ _ => false
  | .frameAck => false
  | .wakeBytes _ _ => false
  | .cmdGetFirmwareVersion => false
  | .cmdSamConfiguration => false
  | .cmdInListPassiveTarget _ => false

/-- The operations that run one `CALL` (R145, R150, R155, R175). -/
def Instr.isCall : Instr → Bool
  | .encodeCommand _ _ => false
  | .decodeAck _ => false
  | .decodeResponse _ _ => false
  | .clearAndWrite _ => false
  | .readExactAvailable _ => false
  | .waitForData _ => false
  | .resetSequence => false
  | .initSession => false
  | .wakeup => false
  | .exchange _ _ _ _ => false
  | .call _ _ _ _ => true
  | .getFirmwareVersion => true
  | .samConfiguration => false
  | .readTarget => true
  | .trackerStep _ => false
  | .poll => true
  | .formatUid _ => false
  | .frameCommand _ _ => false
  | .frameResponse _ _ _ _ => false
  | .frameAck => false
  | .wakeBytes _ _ => false
  | .cmdGetFirmwareVersion => false
  | .cmdSamConfiguration => false
  | .cmdInListPassiveTarget _ => false

/-- The operations that apply one tracker step (R170, R175). -/
def Instr.stepsTracker : Instr → Bool
  | .encodeCommand _ _ => false
  | .decodeAck _ => false
  | .decodeResponse _ _ => false
  | .clearAndWrite _ => false
  | .readExactAvailable _ => false
  | .waitForData _ => false
  | .resetSequence => false
  | .initSession => false
  | .wakeup => false
  | .exchange _ _ _ _ => false
  | .call _ _ _ _ => false
  | .getFirmwareVersion => false
  | .samConfiguration => false
  | .readTarget => false
  | .trackerStep _ => true
  | .poll => true
  | .formatUid _ => false
  | .frameCommand _ _ => false
  | .frameResponse _ _ _ _ => false
  | .frameAck => false
  | .wakeBytes _ _ => false
  | .cmdGetFirmwareVersion => false
  | .cmdSamConfiguration => false
  | .cmdInListPassiveTarget _ => false

end Sys2Proof

namespace Sys2Proof.Machine

/-! ### Frames -/

/-- `as_reply` of 40_framecodec R98: TFI `0xD5`, opcode plus one, DCS recomputed, every other byte unchanged. -/
def asReply (f : Bytes) : Bytes :=
  let data := echoOf (f.getD 6 0x00#8) :: (f.take (f.length - 2)).drop 7
  f.take 5 ++ [tfiDevice] ++ data ++ [neg8 (tfiDevice.toNat + byteSum data)] ++ f.drop (f.length - 1)

/-! ### Environment scripts (95_test_vectors, "Notation for the environment script") -/

/-- `W:ok`. -/
def writeOkDraw : WriteDraw := { ok := true, sent := 0, arrived := [] }

/-- `answer(F)` after its write: the ACK arrives in the first wait, `f` in the second, nothing in the read slices. -/
def answer (f : Bytes) : List Bytes := [ackBytes, [], f, []]

/-- `silence` after its write: nothing arrives in the first wait. -/
def silence : List Bytes := [[]]

/-- The response frame a device sends with these result bytes, in the emitted form of 30_encoding R60. -/
def replyFrame (opcode : Byte) (results : Bytes) : Bytes := responseFrame 2 (echoOf opcode) results [zeroByte]

/-- A run of raw poll results through the tracker (R170): the events, one entry a step, and the end state. -/
def trackerRun (threshold : Nat) : List (Option Bytes) → Tracker → List (Option PresenceEvent) × Tracker
  | [], t => ([], t)
  | r :: rs, t =>
    let e := trackerStep threshold r t
    let es := trackerRun threshold rs e.2
    (e.1 :: es.1, es.2)

end Sys2Proof.Machine
end

