-- ==== Sys2Proof/Certificates/Slice0/Obligations.lean ====
section
/-! DEFINITION. The statements for the provers, from the numbered rules of spec/. A result record written
`{ s with … }` is also the statement's frame: every component it does not name is unchanged. -/

open Sys2Proof Sys2Proof.Machine

/-! ### Reset, steps and decoding -/

/-- 10_state R24: the values after block reset, and that nothing is written to the serial line and the reset line is not
pulsed by any step of an `Uninitialized` session until the host requests `INITIALIZE` (the internal operations and wire
moves are not the host's, R70). `rxbuf` is unspecified and nothing is said of it. The latch, the
counter's 0 and the resting level are the spec's decisions D21, D30 and D33, given by the rule. -/
def Obligations.ResetState : Prop :=
  (State.reset.sessionState = .uninitialized ∧ State.reset.faultKind = none ∧
    State.reset.tracker = { presence := .absent, missCnt := 0 } ∧ State.reset.line.txlog = [] ∧
    State.reset.line.rstPulses = 0 ∧ State.reset.line.rstLine = .high ∧ State.reset.busy = false) ∧
  ∀ s t : State, s.sessionState = .uninitialized →
    (∀ c rest i, s.script = .present c :: rest → decode c = .ok i → i.hostVisible = true ∧ i ≠ .initSession) →
    step s = .next t → t.sessionState = .uninitialized ∧ t.line.txlog = s.line.txlog ∧
      t.line.rstLine = s.line.rstLine ∧ t.line.rstPulses = s.line.rstPulses

/-- The invariant and the miss counter's bound hold at reset. -/
def Obligations.ResetMeetsInvariants : Prop :=
  State.reset.Inv ∧ State.reset.tracker.Bounded State.reset.params.threshold

/-- A step runs the decoded instruction: when the next move presents code that decodes to `i`, the step is `exec` of `i`
at the state with that move taken away. That requests come from a list of moves is the model's choice (log entry 1). -/
def Obligations.StepRunsDecoded : Prop :=
  ∀ (s : State) (c : Code) (rest : List Move) (i : Instr), s.script = .present c :: rest → decode c = .ok i →
    step s = exec i { s with script := rest }

/-- The moves that are no operation: nothing requested, bytes arriving between operations (20_memory R44), new parameters
between operations (the spec's decision D4). The list of moves, that an excluded configuration is refused, and that the
tracker is left as it is by a threshold lowered to or below its counter, are the model's choices (log entries 1, 5, 23). -/
def Obligations.StepOtherMoves : Prop :=
  ∀ s : State,
    (s.script = [] → step s = .next s) ∧
    (∀ bs rest, s.script = .arrive bs :: rest →
      step s = .next { s with script := rest, line := { s.line with rxbuf := s.line.rxbuf ++ bs } }) ∧
    (∀ p rest, s.script = .configure p :: rest → p.Valid → step s = .next { s with script := rest, params := p }) ∧
    (∀ p rest, s.script = .configure p :: rest → ¬ p.Valid → step s = .refused .invalidParameters)

/-- 30_encoding R70: the operation each `op_sel` code selects, with its operands by value, and which of
them the host may request; any other code is refused with no state change (the result port then reads `Refused`). The
codes are the spec's own choice (D2); which lane of the port an operand comes from, and that `Refused` is put on the result
port, are the model's (log entries 3 and 8). -/
def Obligations.OpSelTable : Prop :=
  (∀ r : Request,
    (r.opSel = 0b00001#5 → decode (.request r) = .ok (.encodeCommand r.opcode r.bytes)) ∧
    (r.opSel = 0b00010#5 → decode (.request r) = .ok (.decodeAck r.bytes)) ∧
    (r.opSel = 0b00011#5 → decode (.request r) = .ok (.decodeResponse r.bytes r.opcode)) ∧
    (r.opSel = 0b00100#5 → decode (.request r) = .ok (.clearAndWrite r.bytes)) ∧
    (r.opSel = 0b00101#5 → decode (.request r) = .ok (.readExactAvailable r.count)) ∧
    (r.opSel = 0b00110#5 → decode (.request r) = .ok (.waitForData r.timeout)) ∧
    (r.opSel = 0b00111#5 → decode (.request r) = .ok .resetSequence) ∧
    (r.opSel = 0b01000#5 → decode (.request r) = .ok .initSession) ∧
    (r.opSel = 0b01001#5 → decode (.request r) = .ok .wakeup) ∧
    (r.opSel = 0b01010#5 → decode (.request r) = .ok (.exchange r.opcode r.bytes r.count r.timeout)) ∧
    (r.opSel = 0b01011#5 → decode (.request r) = .ok (.call r.opcode r.bytes r.count r.timeout)) ∧
    (r.opSel = 0b01100#5 → decode (.request r) = .ok .getFirmwareVersion) ∧
    (r.opSel = 0b01101#5 → decode (.request r) = .ok .samConfiguration) ∧
    (r.opSel = 0b01110#5 → decode (.request r) = .ok .readTarget) ∧
    (r.opSel = 0b10000#5 → decode (.request r) = .ok (.trackerStep r.raw)) ∧
    (r.opSel = 0b10001#5 → decode (.request r) = .ok .poll) ∧
    (r.opSel = 0b10010#5 → decode (.request r) = .ok (.formatUid r.bytes))) ∧
  (∀ (r : Request) (i : Instr), decode (.request r) = .ok i →
    (i.hostVisible = true ↔ r.opSel.toNat ∈ [1, 2, 3, 8, 11, 12, 14, 16, 17, 18])) ∧
  ∀ (s : State) (r : Request) (rest : List Move), s.script = .present (.request r) :: rest →
    r.opSel.toNat ∉ [1, 2, 3, 4, 5, 6, 7, 8, 9, 10, 11, 12, 13, 14, 16, 17, 18] →
    step s = .next { s with script := rest, result := some .refused }

/-- A few codes written out from the layouts of R67, R68, R69, R62, R63, R64, R65 and from R70 decode to what they stand
for; the last is a word of the table laid out by the model's choice (log entry 17). -/
def Obligations.DecodeWords : Prop :=
  decodeWire [0x00#8, 0x00#8, 0xFF#8, 0x02#8, 0xFE#8, 0xD4#8, 0x02#8, 0x2A#8, 0x00#8] = .ok .cmdGetFirmwareVersion ∧
  decodeWire [0x00#8, 0x00#8, 0xFF#8, 0x05#8, 0xFB#8, 0xD4#8, 0x14#8, 0x01#8, 0x14#8, 0x01#8, 0x02#8, 0x00#8] =
    .ok .cmdSamConfiguration ∧
  decodeWire [0x00#8, 0x00#8, 0xFF#8, 0x04#8, 0xFC#8, 0xD4#8, 0x4A#8, 0x01#8, 0x01#8, 0xE0#8, 0x00#8] =
    .ok (.cmdInListPassiveTarget 0x01#8) ∧
  decodeWire [0x00#8, 0x00#8, 0xFF#8, 0x03#8, 0xFD#8, 0xD4#8, 0xFF#8, 0x2D#8, 0x00#8, 0x00#8] =
    .ok (.frameCommand 0xFF#8 [0x2D#8]) ∧
  decodeWire [0x00#8, 0xFF#8, 0x03#8, 0xFD#8, 0xD5#8, 0x4B#8, 0x00#8, 0xE0#8, 0xAA#8] =
    .ok (.frameResponse 1 0x4B#8 [0x00#8] [0xAA#8]) ∧
  decodeWire [0x00#8, 0x00#8, 0xFF#8, 0x00#8, 0xFF#8, 0x00#8] = .ok .frameAck ∧
  decodeWire [0x55#8, 0x55#8, 0x00#8, 0x00#8, 0x00#8] = .ok (.wakeBytes 2 3) ∧
  decodeTableWord 8 0x0B = some (.call 0x00#8 [] 0 0)

/-- Decode and encode agree: every operand of every well-formed instruction survives. The request's operand lanes are the
model's choice (log entry 3). -/
def Obligations.DecodeEncode : Prop :=
  ∀ i : Instr, i.WellFormed → decode (encode i) = .ok i

/-- Wire bytes have one meaning: what some bytes decode to is encoded as those bytes, and is well-formed. -/
def Obligations.WireDecodeExact : Prop :=
  ∀ (bs : Bytes) (i : Instr), decode (.wire bs) = .ok i → i.WellFormed ∧ encode i = .wire bs

/-! ### Invariants and whole-machine rules -/

/-- The invariant of the state between operations (10_state R11, R12, R18, R20; 70_reset_and_hazards R222) is kept by every
step. -/
def Obligations.StepKeepsInv : Prop :=
  ∀ s t : State, s.Inv → step s = .next t → t.Inv

/-- The bound of the miss counter (10_state R21) is kept by every step that does not change the parameters. One that does
can lower the threshold below the counter, and the model then keeps the counter (its choice, log entry 23). -/
def Obligations.StepKeepsMissBound : Prop :=
  ∀ s t : State, s.params.Valid → s.tracker.Bounded s.params.threshold →
    (∀ p rest, s.script ≠ .configure p :: rest) → step s = .next t → t.tracker.Bounded t.params.threshold

/-- Every instruction answers a next state: an error is a value the operation returns (60_exceptions R190). -/
def Obligations.EveryOperationReturns : Prop :=
  ∀ (i : Instr) (s : State), ∃ t, exec i s = .next t ∧ t.params = s.params ∧ t.script = s.script

/-- The complete list of what moves the session between two operations (R129, R197). -/
def Obligations.SessionTransitions : Prop :=
  ∀ (i : Instr) (s t : State), exec i s = .next t →
    (t.sessionState = s.sessionState ∧ t.faultKind = s.faultKind) ∨
    (i = .initSession ∧ s.sessionState ≠ .busy ∧ s.sessionState ≠ .awaitingWakeup ∧
      ((t.sessionState = .ready ∧ t.faultKind = none) ∨ (t.sessionState = .faulted ∧ t.faultKind = some .initFailed))) ∨
    (i.isCall = true ∧ s.sessionState = .ready ∧ t.sessionState = .faulted ∧
      ∃ k, t.faultKind = some k ∧ k.errorClass = .protocolViolation)

/-- 60_exceptions R197: what entering `Faulted` writes, and that nothing else is saved or changed: at a violation in `CALL`
the state is that of the exchange which detected it, and when `INITIALIZE` gives up Transport is as the end of its second
attempt left it, with no pulse beside the one at the start. -/
def Obligations.FaultEntry : Prop :=
  (∀ (op : Byte) (ps : Bytes) (n tmo : Nat) (s t : State) (k : ErrorKind), exec (.call op ps n tmo) s = .next t →
    t.result = some (.called (.protocolViolation k)) → ∃ l : Line,
      exec (.exchange op ps n tmo) s = .next { s with line := l, result := some (.exchanged (.violation k)) } ∧
      t = { s with
        line := l, sessionState := .faulted, faultKind := some k, result := some (.called (.protocolViolation k)) }) ∧
  ∀ s t : State, exec .initSession s = .next t → t.result = some (.initResult .initFailed) →
    t = { s with
      line := (attempts s.params (1 + wakeupRetries) (resetSequence s.line)).2,
      sessionState := .faulted, faultKind := some .initFailed, result := some (.initResult .initFailed) } ∧
    t.line.rstPulses = s.line.rstPulses + 1 ∧ t.line.rstLine = .high

/-- While `Faulted` every operation that calls is refused without touching the wire, and no step but one that runs
`INITIALIZE` leaves `Faulted` or changes what is latched (R200). -/
def Obligations.FaultedUntilInitialize : Prop :=
  (∀ s t : State, s.sessionState = .faulted → (∀ c rest, s.script = .present c :: rest → decode c ≠ .ok .initSession) →
    step s = .next t → t.sessionState = .faulted ∧ t.faultKind = s.faultKind) ∧
  ∀ s : State, s.sessionState = .faulted →
    (∀ op ps n tmo, exec (.call op ps n tmo) s = .next { s with result := some (.called .refused) }) ∧
    exec .getFirmwareVersion s = .next { s with result := some (.firmware (.other .refused)) } ∧
    exec .readTarget s = .next { s with result := some (.target none .statusRefused) } ∧
    ∃ t e, exec .poll s = .next t ∧ t.line = s.line ∧ t.result = some (.polled e .statusRefused)

/-- Of every step: `txlog` only grows (R17, R45), the block never writes its parameters (R15), the reset line that rests
high rests high after it, and at most one reset sequence is completed (R18). -/
def Obligations.StepFrame : Prop :=
  ∀ s t : State, step s = .next t →
    (∃ sent, t.line.txlog = s.line.txlog ++ sent) ∧
    ((∀ p rest, s.script ≠ .configure p :: rest) → t.params = s.params) ∧
    (s.line.rstLine = .high → t.line.rstLine = .high) ∧
    (t.line.rstPulses = s.line.rstPulses ∨ t.line.rstPulses = s.line.rstPulses + 1)

/-- The reset line is pulsed by `RESET_SEQUENCE` and at the start of `INITIALIZE` and by nothing else, once (R18, R158). -/
def Obligations.ResetPulses : Prop :=
  ∀ (i : Instr) (s t : State), exec i s = .next t →
    t.line.rstPulses = s.line.rstPulses +
      (if i = .resetSequence ∨
          (i = .initSession ∧ s.sessionState ≠ .busy ∧ s.sessionState ≠ .awaitingWakeup) then 1 else 0)

/-- The tracker is written by `TRACKER_STEP` and `POLL` and by nothing else (10_state R20, R21; INITIALIZE leaves it: D39). -/
def Obligations.TrackerOwned : Prop :=
  ∀ (i : Instr) (s t : State), i.stepsTracker = false → exec i s = .next t → t.tracker = s.tracker

/-- No duration has an effect (R236): with other values of every duration parameter and of `RX_DEPTH`, and of the timeout
operands, each operation does the same. -/
def Obligations.DurationsIrrelevant : Prop :=
  (∀ (i : Instr) (s t : State) (d1 d2 d3 d4 d5 d6 d7 : Nat) (depth : Option Nat), exec i s = .next t →
    let p := { s.params with
      cmdTimeout := d1, shortTimeout := d2, waitPollInterval := d3, readSlice := d4, pollInterval := d5,
      resetLowHoldMs := d6, resetHighSettleMs := d7, rxDepth := depth }
    exec i { s with params := p } = .next { t with params := p }) ∧
  ∀ (s : State) (op : Byte) (ps : Bytes) (n tmo tmo' : Nat),
    exec (.call op ps n tmo) s = exec (.call op ps n tmo') s ∧
    exec (.exchange op ps n tmo) s = exec (.exchange op ps n tmo') s ∧
    exec (.waitForData tmo) s = exec (.waitForData tmo') s

/-! ### FrameCodec -/

/-- 40_framecodec R90. -/
def Obligations.EncodeCommandResult : Prop :=
  ∀ (op : Byte) (ps : Bytes) (s : State),
    exec (.encodeCommand op ps) s = .next { s with result := some (.encoded (
      if ps.length > 252 then .error .invalidParameterCount
      else .ok ([0x00#8, 0x00#8, 0xFF#8, BitVec.ofNat 8 (ps.length + 2), BitVec.ofNat 8 (256 - (ps.length + 2)), 0xD4#8,
        op] ++ ps ++ [BitVec.ofNat 8 ((256 - (0xD4 + op.toNat + byteSum ps) % 256) % 256), 0x00#8]))) }

/-- 40_framecodec R91, which the spec derives from R90: what holds of every frame the encoder returns, and that it is injective. -/
def Obligations.CommandFrameProperties : Prop :=
  (∀ (op : Byte) (ps f : Bytes), encodeCommand op ps = .ok f →
    f.length = ps.length + 9 ∧ f.take 3 = [0x00#8, 0x00#8, 0xFF#8] ∧
    ((f.getD 3 0#8).toNat + (f.getD 4 0#8).toNat) % 256 = 0 ∧ f[5]? = some 0xD4#8 ∧ f[6]? = some op ∧
    (f.drop 7).take ps.length = ps ∧ byteSum ((f.drop 5).take (ps.length + 3)) % 256 = 0 ∧
    f[ps.length + 8]? = some 0x00#8) ∧
  ∀ (op op' : Byte) (ps ps' f : Bytes), encodeCommand op ps = .ok f → encodeCommand op' ps' = .ok f →
    op = op' ∧ ps = ps'

/-- 40_framecodec R94. -/
def Obligations.DecodeAckResult : Prop :=
  ∀ (b : Bytes) (s : State),
    exec (.decodeAck b) s =
      .next { s with result := some (.ack (decide (b = [0x00#8, 0x00#8, 0xFF#8, 0x00#8, 0xFF#8, 0x00#8]))) }

/-- 40_framecodec R96, over the input's leading zeros `z` and its rest; every input is of that form. The checks and their
order are the rule's, the spec's decisions D8 to D13 among them. -/
def Obligations.DecodeResponseChecks : Prop :=
  (∀ b : Bytes, ∃ z rest, b = List.replicate z 0x00#8 ++ rest ∧ rest.head? ≠ some 0x00#8) ∧
  ∀ (z : Nat) (rest : Bytes) (op : Byte) (s : State), rest.head? ≠ some 0x00#8 →
    exec (.decodeResponse (List.replicate z 0x00#8 ++ rest) op) s = .next { s with result := some (.decoded (
      if z = 0 ∨ rest.head? ≠ some 0xFF#8 then .error .missingStartCode
      else if rest.length < 3 then .error .truncatedFrame
      else if ((rest.getD 1 0#8).toNat + (rest.getD 2 0#8).toNat) % 256 ≠ 0 then .error .lengthChecksumMismatch
      else if rest.length < (rest.getD 1 0#8).toNat + 4 then .error .truncatedFrame
      else if byteSum ((rest.drop 3).take ((rest.getD 1 0#8).toNat + 1)) % 256 ≠ 0 then .error .dataChecksumMismatch
      else if (rest.getD 1 0#8).toNat < 2 ∨ rest.getD 3 0#8 ≠ 0xD5#8 ∨
          (rest.getD 4 0#8).toNat ≠ (op.toNat + 1) % 256 then .error .unexpectedResponse
      else .ok ((rest.drop 5).take ((rest.getD 1 0#8).toNat - 2)))) }

/-- What the decoder accepts is exactly the layout of 30_encoding R63: any number of leading zeros from one up, LEN with
its LCS, `0xD5`, the echo, the result bytes, a DCS that makes the window sum to 0, and anything after it. -/
def Obligations.AcceptedResponses : Prop :=
  ∀ (b : Bytes) (op : Byte) (results : Bytes) (s : State),
    exec (.decodeResponse b op) s = .next { s with result := some (.decoded (.ok results)) } ↔
      ∃ (z : Nat) (lcs dcs : Byte) (trail : Bytes),
        b = List.replicate (z + 1) 0x00#8 ++ [0xFF#8, BitVec.ofNat 8 (results.length + 2), lcs, 0xD5#8,
          BitVec.ofNat 8 (op.toNat + 1)] ++ results ++ [dcs] ++ trail ∧
        results.length ≤ 253 ∧ (results.length + 2 + lcs.toNat) % 256 = 0 ∧
        (0xD5 + (op.toNat + 1) % 256 + byteSum results + dcs.toNat) % 256 = 0

/-- The round trip of 40_framecodec R98. The sentence for every opcode and every parameters is the spec's inference from R90
and R96, and the transform `as_reply` its own reading (log entry 13). -/
def Obligations.FrameRoundTrip : Prop :=
  ∀ (op : Byte) (ps f : Bytes) (s : State), ps.length ≤ 252 → encodeCommand op ps = .ok f →
    exec (.decodeResponse (asReply f) op) s = .next { s with result := some (.decoded (.ok ps)) }

/-- 40_framecodec R99: in a well-formed response frame any one byte from TFI to DCS replaced by a different one. That it
holds of R96, and the case of the TFI byte, are the spec's inference (log entry 13). -/
def Obligations.ChecksumRejection : Prop :=
  ∀ (z : Nat) (echo op v : Byte) (results trail : Bytes) (j : Nat) (s : State), 1 ≤ z → results.length ≤ 253 →
    z + 3 ≤ j → j ≤ z + results.length + 5 → (responseFrame z echo results trail)[j]? ≠ some v →
    exec (.decodeResponse ((responseFrame z echo results trail).set j v) op) s =
      .next { s with result := some (.decoded (.error .dataChecksumMismatch)) }

/-- 40_framecodec R100, first sentence, for changes among the result bytes: result bytes that differ but sum alike mod 256
pass under the same DCS. -/
def Obligations.CancellingChangesPass : Prop :=
  ∀ (op lcs dcs : Byte) (r r' trail : Bytes) (s : State), r.length = r'.length →
    byteSum r % 256 = byteSum r' % 256 →
    exec (.decodeResponse ([0x00#8, 0x00#8, 0xFF#8, BitVec.ofNat 8 (r.length + 2), lcs, 0xD5#8, echoOf op] ++ r ++
      [dcs] ++ trail) op) s = .next { s with result := some (.decoded (.ok r)) } →
    exec (.decodeResponse ([0x00#8, 0x00#8, 0xFF#8, BitVec.ofNat 8 (r.length + 2), lcs, 0xD5#8, echoOf op] ++ r' ++
      [dcs] ++ trail) op) s = .next { s with result := some (.decoded (.ok r')) }

/-- 30_encoding R73, which the spec derives from R96, for any expected opcode. -/
def Obligations.UnsupportedFrames : Prop :=
  ∀ (op : Byte) (tail : Bytes),
    decodeResponse [0x00#8, 0x00#8, 0xFF#8, 0x00#8, 0xFF#8, 0x00#8] op = .error .lengthChecksumMismatch ∧
    decodeResponse [0x00#8, 0x00#8, 0xFF#8, 0xFF#8, 0x00#8, 0x00#8] op = .error .lengthChecksumMismatch ∧
    decodeResponse ([0x00#8, 0x00#8, 0xFF#8, 0xFF#8, 0xFF#8] ++ tail) op = .error .lengthChecksumMismatch ∧
    decodeResponse [0x00#8, 0x00#8, 0xFF#8, 0x01#8, 0xFF#8, 0x7F#8, 0x81#8, 0x00#8] op = .error .unexpectedResponse

/-! ### Transport -/

/-- 41_transport R110, for whatever the environment draws: the script's draw when there is one. What arrived after the
discard stays in `rxbuf` (R110 corner cases, R44); the part sent on failure is the spec's decision D17. -/
def Obligations.ClearAndWriteResult : Prop :=
  ∀ (out : Bytes) (s : State), ∃ (d : WriteDraw) (l : Line),
    exec (.clearAndWrite out) s = .next { s with
      line := l, result := some (.written (if d.ok then .writeOk else .writeFailed)) } ∧
    l.rxbuf = d.arrived ∧ l.txlog = s.line.txlog ++ (if d.ok then out else out.take d.sent) ∧
    l.rstLine = s.line.rstLine ∧ l.rstPulses = s.line.rstPulses ∧ l.arrivals = s.line.arrivals ∧
    ∀ d' ds, s.line.writeDraws = d' :: ds → d = d' ∧ l.writeDraws = ds ∧ l.freeCount = s.line.freeCount

/-- 41_transport R113, for whatever arrives during the slice; the bytes returned and the bytes left are what was there, in
arrival order (20_memory R45 item 2). That a count of 0, which the rule excludes, runs the same way is the model's choice
(log entry 9). -/
def Obligations.ReadExactResult : Prop :=
  ∀ (m : Nat) (s : State), ∃ (bs got : Bytes) (l : Line),
    exec (.readExactAvailable m) s = .next { s with line := l, result := some (.got got) } ∧
    got = (s.line.rxbuf ++ bs).take m ∧ got ++ l.rxbuf = s.line.rxbuf ++ bs ∧
    got.length = min m (s.line.rxbuf ++ bs).length ∧
    l.txlog = s.line.txlog ∧ l.rstLine = s.line.rstLine ∧ l.rstPulses = s.line.rstPulses ∧
    l.writeDraws = s.line.writeDraws ∧
    ∀ bs' rest, s.line.arrivals = bs' :: rest → bs = bs' ∧ l.arrivals = rest ∧ l.freeCount = s.line.freeCount

/-- 41_transport R116, for whatever arrives before the wait ends. -/
def Obligations.WaitForDataResult : Prop :=
  ∀ (tmo : Nat) (s : State), ∃ (bs : Bytes) (l : Line),
    exec (.waitForData tmo) s = .next { s with
      line := l, result := some (.ready (decide (0 < (s.line.rxbuf ++ bs).length))) } ∧
    l.rxbuf = s.line.rxbuf ++ bs ∧
    l.txlog = s.line.txlog ∧ l.rstLine = s.line.rstLine ∧ l.rstPulses = s.line.rstPulses ∧
    l.writeDraws = s.line.writeDraws ∧
    ∀ bs' rest, s.line.arrivals = bs' :: rest → bs = bs' ∧ l.arrivals = rest ∧ l.freeCount = s.line.freeCount

/-- 41_transport R119: everything but the pulse count and the level it ends at is untouched, `rxbuf` too. The bare
result `done` on the result port, which the spec gives the operation none for, is the model's choice (log entry 8). -/
def Obligations.ResetSequenceResult : Prop :=
  ∀ s : State, exec .resetSequence s = .next { s with
    line := { s.line with rstLine := .high, rstPulses := s.line.rstPulses + 1 }, result := some .done }

/-! ### Session -/

/-- 42_session R140: the result of an exchange, what is sent, and what is left in `rxbuf`, for every environment script.
`d` is the draw at the write, `a1` to `a4` what arrives in the two waits and two reads. The spec's decisions D7, D14 to D16
and D24 are part of the rule. -/
def Obligations.ExchangeResults : Prop :=
  ∀ (s : State) (op : Byte) (ps : Bytes) (n tmo : Nat),
    (252 < ps.length → exec (.exchange op ps n tmo) s =
      .next { s with result := some (.exchanged (.badRequest .invalidParameterCount)) }) ∧
    ∀ (d : WriteDraw) (ws : List WriteDraw) (a1 a2 a3 a4 : Bytes) (rest : List Bytes), ps.length ≤ 252 →
      s.line.writeDraws = d :: ws → s.line.arrivals = a1 :: a2 :: a3 :: a4 :: rest →
      exec (.exchange op ps n tmo) s =
        if d.ok = false then
          .next { s with
            line := { s.line with
              rxbuf := d.arrived, txlog := s.line.txlog ++ (commandFrame op ps).take d.sent, writeDraws := ws },
            result := some (.exchanged .writeFailed) }
        else if d.arrived ++ a1 = [] then
          .next { s with
            line := { s.line with
              rxbuf := [], txlog := s.line.txlog ++ commandFrame op ps, writeDraws := ws,
              arrivals := a2 :: a3 :: a4 :: rest },
            result := some (.exchanged .noResponse) }
        else if (d.arrived ++ a1 ++ a2).take 6 ≠ [0x00#8, 0x00#8, 0xFF#8, 0x00#8, 0xFF#8, 0x00#8] then
          .next { s with
            line := { s.line with
              rxbuf := (d.arrived ++ a1 ++ a2).drop 6, txlog := s.line.txlog ++ commandFrame op ps, writeDraws := ws,
              arrivals := a3 :: a4 :: rest },
            result := some (.exchanged (.violation .badAck)) }
        else if (d.arrived ++ a1 ++ a2).drop 6 ++ a3 = [] then
          .next { s with
            line := { s.line with
              rxbuf := [], txlog := s.line.txlog ++ commandFrame op ps, writeDraws := ws, arrivals := a4 :: rest },
            result := some (.exchanged .noResponse) }
        else
          .next { s with
            line := { s.line with
              rxbuf := ((d.arrived ++ a1 ++ a2).drop 6 ++ a3 ++ a4).drop (n + 9),
              txlog := s.line.txlog ++ commandFrame op ps, writeDraws := ws, arrivals := rest },
            result := some (.exchanged (
              match decodeResponse (((d.arrived ++ a1 ++ a2).drop 6 ++ a3 ++ a4).take (n + 9)) op with
              | .error k => .violation k
              | .ok p => .payload p)) }

/-- An exchange writes nothing but Transport's part (R140): at most its own command frame goes out, the reset line is left
alone, and the kinds it reports are the rule's. For every draw of the environment, scripted or free. -/
def Obligations.ExchangeFrame : Prop :=
  ∀ (s : State) (op : Byte) (ps : Bytes) (n tmo : Nat), ∃ (r : ExchangeResult) (l : Line) (k : Nat),
    exec (.exchange op ps n tmo) s = .next { s with line := l, result := some (.exchanged r) } ∧
    l.txlog = s.line.txlog ++ (commandFrame op ps).take k ∧ l.rstLine = s.line.rstLine ∧
    l.rstPulses = s.line.rstPulses ∧
    (∀ e, r = .violation e → e = .badAck ∨ e = .missingStartCode ∨ e = .lengthChecksumMismatch ∨
      e = .dataChecksumMismatch ∨ e = .unexpectedResponse ∨ e = .truncatedFrame) ∧
    (∀ e, r = .badRequest e ↔ (252 < ps.length ∧ e = .invalidParameterCount))

/-- 42_session R152 (the spec's decision D6). The bare result `done`, which the spec gives the operation none for, is the
model's choice (log entry 8). -/
def Obligations.SamConfigurationIsExchange : Prop :=
  ∀ s : State, ∃ t, exec (.exchange 0x14#8 [0x01#8, 0x14#8, 0x01#8] 0 s.params.cmdTimeout) s = .next t ∧
    exec .samConfiguration s = .next { t with result := some .done }

/-- 42_session R135: the preamble, then SAM configuration, whatever came of the preamble's write (the
spec's decision D18). That the result port then reads SAM configuration's bare result `done`, while the rule says that the
operation returns nothing, is the model's choice (log entry 8). -/
def Obligations.WakeupIsPreambleThenSam : Prop :=
  ∀ s : State, ∃ t u,
    exec (.clearAndWrite (List.replicate s.params.wake55Count 0x55#8 ++
      List.replicate s.params.wake00Count 0x00#8)) s = .next t ∧
    exec .samConfiguration t = .next u ∧ exec .wakeup s = .next u

/-- 42_session R145: a call outside `Ready` is refused with nothing changed; in `Ready` it is one exchange and then the
policy for its result (the spec's decisions D18, D22 and D24 are part of the rule). -/
def Obligations.CallPolicy : Prop :=
  ∀ (s : State) (op : Byte) (ps : Bytes) (n tmo : Nat),
    (s.sessionState ≠ .ready → exec (.call op ps n tmo) s = .next { s with result := some (.called .refused) }) ∧
    (s.sessionState = .ready → ∃ (r : ExchangeResult) (l : Line),
      exec (.exchange op ps n tmo) s = .next { s with line := l, result := some (.exchanged r) } ∧
      (∀ p, r = .payload p → exec (.call op ps n tmo) s =
        .next { s with line := l, result := some (.called (.ok p)) }) ∧
      (r = .noResponse → exec (.call op ps n tmo) s =
        .next { s with line := l, result := some (.called .noResponse) }) ∧
      (r = .writeFailed → ∃ u, exec .wakeup { s with line := l } = .next u ∧
        exec (.call op ps n tmo) s = .next { u with result := some (.called .noResponse) }) ∧
      (∀ k, r = .violation k → exec (.call op ps n tmo) s = .next { s with
        line := l, sessionState := .faulted, faultKind := some k, result := some (.called (.protocolViolation k)) }) ∧
      (∀ k, r = .badRequest k → exec (.call op ps n tmo) s =
        .next { s with line := l, result := some (.called (.badRequest k)) }))

/-- A call completes: with a device that acknowledges and answers within the read budget, the result bytes come back
(R140, R145). -/
def Obligations.CallCompletes : Prop :=
  ∀ (s : State) (op : Byte) (ps results : Bytes) (n tmo : Nat) (ws : List WriteDraw) (rest : List Bytes),
    s.sessionState = .ready → ps.length ≤ 252 → results.length ≤ 253 → results.length ≤ n →
    s.line.writeDraws = writeOkDraw :: ws → s.line.arrivals = answer (replyFrame op results) ++ rest →
    exec (.call op ps n tmo) s = .next { s with
      line := { s.line with
        rxbuf := [], txlog := s.line.txlog ++ commandFrame op ps, writeDraws := ws, arrivals := rest },
      result := some (.called (.ok results)) }

/-- A write failure inside a call triggers one wake-up and is reported as "no response"; the session stays `Ready` even
when every write of the wake-up fails too (R145, R194; the prefix sent is D17's). -/
def Obligations.CallWriteFailure : Prop :=
  ∀ (s : State) (op : Byte) (ps : Bytes) (n tmo k1 k2 k3 : Nat) (ws : List WriteDraw),
    s.sessionState = .ready → ps.length ≤ 252 →
    s.line.writeDraws = ⟨false, k1, []⟩ :: ⟨false, k2, []⟩ :: ⟨false, k3, []⟩ :: ws →
    exec (.call op ps n tmo) s = .next { s with
      line := { s.line with
        rxbuf := [],
        txlog := s.line.txlog ++ (commandFrame op ps).take k1 ++
          (wakePattern s.params.wake55Count s.params.wake00Count).take k2 ++
          ([0x00#8, 0x00#8, 0xFF#8, 0x05#8, 0xFB#8, 0xD4#8, 0x14#8, 0x01#8, 0x14#8, 0x01#8, 0x02#8, 0x00#8]).take k3,
        writeDraws := ws },
      result := some (.called .noResponse) }

/-- A late reply that answers the same opcode, arriving after the next command's discard, is accepted as fresh, and the
fresh one is then left unread (the hazard of 70_reset_and_hazards R232). -/
def Obligations.LateReplyAccepted : Prop :=
  ∀ (s : State) (op : Byte) (ps stale fresh : Bytes) (n tmo : Nat) (ws : List WriteDraw) (rest : List Bytes),
    s.sessionState = .ready → ps.length ≤ 252 → stale.length = n → n ≤ 253 →
    s.line.writeDraws = { ok := true, sent := 0, arrived := ackBytes ++ replyFrame op stale } :: ws →
    s.line.arrivals = ackBytes :: [] :: replyFrame op fresh :: [] :: rest →
    exec (.call op ps n tmo) s = .next { s with
      line := { s.line with
        rxbuf := ackBytes ++ replyFrame op fresh, txlog := s.line.txlog ++ commandFrame op ps, writeDraws := ws,
        arrivals := rest },
      result := some (.called (.ok stale)) }

/-- 42_session R130: refused in `Busy` and `AwaitingWakeup`; else one reset sequence with the latch cleared, then an
attempt of wake-up and firmware probe, a second one only when the first probe brought no payload of four bytes, and the two
ends. `v1` and `v2` are the states at the end of the two attempts. The spec's decisions D19, D20, D21, D23 are part of the rule. -/
def Obligations.InitializeProtocol : Prop :=
  ∀ s : State,
    (s.sessionState = .awaitingWakeup ∨ s.sessionState = .busy →
      exec .initSession s = .next { s with result := some (.initResult .refused) }) ∧
    (s.sessionState ≠ .awaitingWakeup → s.sessionState ≠ .busy →
      ∃ (u1 v1 u2 v2 : State) (r1 r2 : ExchangeResult),
        exec .wakeup { s with
          faultKind := none, sessionState := .awaitingWakeup,
          line := { s.line with rstLine := .high, rstPulses := s.line.rstPulses + 1 } } = .next u1 ∧
        exec (.exchange 0x02#8 [] 4 s.params.cmdTimeout) u1 = .next { v1 with result := some (.exchanged r1) } ∧
        exec .wakeup v1 = .next u2 ∧
        exec (.exchange 0x02#8 [] 4 s.params.cmdTimeout) u2 = .next { v2 with result := some (.exchanged r2) } ∧
        (∀ p, r1 = .payload p → 4 ≤ p.length → exec .initSession s = .next { v1 with
          sessionState := .ready,
          result := some (.initResult (.initOk ⟨p.getD 0 0#8, p.getD 1 0#8, p.getD 2 0#8, p.getD 3 0#8⟩)) }) ∧
        ((∀ p, r1 = .payload p → p.length < 4) →
          (∀ p, r2 = .payload p → 4 ≤ p.length → exec .initSession s = .next { v2 with
            sessionState := .ready,
            result := some (.initResult (.initOk ⟨p.getD 0 0#8, p.getD 1 0#8, p.getD 2 0#8, p.getD 3 0#8⟩)) }) ∧
          ((∀ p, r2 = .payload p → p.length < 4) → exec .initSession s = .next { v2 with
            sessionState := .faulted, faultKind := some .initFailed, result := some (.initResult .initFailed) })))

/-- 42_session R130 for every environment: refused in `Busy` and `AwaitingWakeup` with nothing changed; else exactly one
reset pulse, `Ready` with the four bytes or `Faulted` with `InitFailed`, and the tracker and the parameters untouched. -/
def Obligations.InitializeOutcomes : Prop :=
  ∀ s : State,
    (s.sessionState = .awaitingWakeup ∨ s.sessionState = .busy →
      exec .initSession s = .next { s with result := some (.initResult .refused) }) ∧
    (s.sessionState ≠ .awaitingWakeup → s.sessionState ≠ .busy → ∃ l : Line,
      l.rstLine = .high ∧ l.rstPulses = s.line.rstPulses + 1 ∧ (∃ sent, l.txlog = s.line.txlog ++ sent) ∧
      ((∃ v, exec .initSession s = .next { s with
          sessionState := .ready, faultKind := none, line := l, result := some (.initResult (.initOk v)) }) ∨
        exec .initSession s = .next { s with
          sessionState := .faulted, faultKind := some .initFailed, line := l,
          result := some (.initResult .initFailed) }))

/-- `INITIALIZE` completes on the first attempt with a device that answers SAM configuration and the firmware probe: one
pulse, then preamble, SAM frame and firmware frame are sent in that order (R130, R222). -/
def Obligations.InitializeCompletes : Prop :=
  ∀ (s : State) (ic ver rev sup : Byte) (ws : List WriteDraw) (rest : List Bytes),
    s.sessionState ≠ .awaitingWakeup → s.sessionState ≠ .busy →
    s.line.writeDraws = writeOkDraw :: writeOkDraw :: writeOkDraw :: ws →
    s.line.arrivals = answer (replyFrame 0x14#8 []) ++ (answer (replyFrame 0x02#8 [ic, ver, rev, sup]) ++ rest) →
    exec .initSession s = .next { s with
      sessionState := .ready, faultKind := none,
      line := { s.line with
        rxbuf := [],
        txlog := s.line.txlog ++ (List.replicate s.params.wake55Count 0x55#8 ++
            List.replicate s.params.wake00Count 0x00#8) ++
          [0x00#8, 0x00#8, 0xFF#8, 0x05#8, 0xFB#8, 0xD4#8, 0x14#8, 0x01#8, 0x14#8, 0x01#8, 0x02#8, 0x00#8] ++
          [0x00#8, 0x00#8, 0xFF#8, 0x02#8, 0xFE#8, 0xD4#8, 0x02#8, 0x2A#8, 0x00#8],
        rstLine := .high, rstPulses := s.line.rstPulses + 1, writeDraws := ws, arrivals := rest },
      result := some (.initResult (.initOk ⟨ic, ver, rev, sup⟩)) }

/-- The retry of R130: a device silent through the first attempt that answers in the second; the pulse is not repeated
(D19). -/
def Obligations.InitializeRetries : Prop :=
  ∀ (s : State) (ic ver rev sup : Byte) (ws : List WriteDraw) (rest : List Bytes),
    s.sessionState ≠ .awaitingWakeup → s.sessionState ≠ .busy →
    s.line.writeDraws = List.replicate 6 writeOkDraw ++ ws →
    s.line.arrivals = silence ++ (silence ++ (answer (replyFrame 0x14#8 []) ++
      (answer (replyFrame 0x02#8 [ic, ver, rev, sup]) ++ rest))) →
    ∃ l : Line, exec .initSession s = .next { s with
        sessionState := .ready, faultKind := none, line := l,
        result := some (.initResult (.initOk ⟨ic, ver, rev, sup⟩)) } ∧
      l.rstPulses = s.line.rstPulses + 1 ∧ l.rxbuf = [] ∧ l.writeDraws = ws ∧ l.arrivals = rest ∧
      l.txlog = s.line.txlog ++ (List.replicate 2 (wakePattern s.params.wake55Count s.params.wake00Count ++
        commandFrame 0x14#8 [0x01#8, 0x14#8, 0x01#8] ++ commandFrame 0x02#8 [])).flatten

/-- A device silent through both attempts: `Faulted` with `InitFailed`, after exactly two attempts (R130, R196). -/
def Obligations.InitializeFails : Prop :=
  ∀ (s : State) (ws : List WriteDraw) (rest : List Bytes),
    s.sessionState ≠ .awaitingWakeup → s.sessionState ≠ .busy →
    s.line.writeDraws = List.replicate 6 writeOkDraw ++ ws → s.line.arrivals = [] :: [] :: [] :: [] :: rest →
    ∃ l : Line, exec .initSession s = .next { s with
        sessionState := .faulted, faultKind := some .initFailed, line := l,
        result := some (.initResult .initFailed) } ∧
      l.rstPulses = s.line.rstPulses + 1 ∧ l.writeDraws = ws ∧ l.arrivals = rest ∧
      l.txlog = s.line.txlog ++ (List.replicate 2 (wakePattern s.params.wake55Count s.params.wake00Count ++
        commandFrame 0x14#8 [0x01#8, 0x14#8, 0x01#8] ++ commandFrame 0x02#8 [])).flatten

/-- 42_session R150: one call, its payload unpacked when it has four bytes, and otherwise "no response"
(the spec's decision D28). -/
def Obligations.GetFirmwareIsCall : Prop :=
  ∀ s : State, ∃ (r : CallResult) (t : State),
    exec (.call 0x02#8 [] 4 s.params.cmdTimeout) s = .next { t with result := some (.called r) } ∧
    (∀ p, r = .ok p → 4 ≤ p.length → exec .getFirmwareVersion s = .next { t with
      result := some (.firmware (.fwOk ⟨p.getD 0 0#8, p.getD 1 0#8, p.getD 2 0#8, p.getD 3 0#8⟩)) }) ∧
    (∀ p, r = .ok p → p.length < 4 → exec .getFirmwareVersion s =
      .next { t with result := some (.firmware .noResponse) }) ∧
    (r = .noResponse → exec .getFirmwareVersion s = .next { t with result := some (.firmware .noResponse) }) ∧
    (∀ k, r = .protocolViolation k → exec .getFirmwareVersion s =
      .next { t with result := some (.firmware (.other (.protocolViolation k))) }) ∧
    (r = .refused → exec .getFirmwareVersion s = .next { t with result := some (.firmware (.other .refused)) }) ∧
    ∀ k, r ≠ .badRequest k

/-- `GET_FIRMWARE_VERSION` completes with a device that answers (R150). -/
def Obligations.GetFirmwareCompletes : Prop :=
  ∀ (s : State) (ic ver rev sup : Byte) (ws : List WriteDraw) (rest : List Bytes),
    s.sessionState = .ready → s.line.writeDraws = writeOkDraw :: ws →
    s.line.arrivals = answer (replyFrame 0x02#8 [ic, ver, rev, sup]) ++ rest →
    exec .getFirmwareVersion s = .next { s with
      line := { s.line with
        rxbuf := [],
        txlog := s.line.txlog ++ [0x00#8, 0x00#8, 0xFF#8, 0x02#8, 0xFE#8, 0xD4#8, 0x02#8, 0x2A#8, 0x00#8],
        writeDraws := ws, arrivals := rest },
      result := some (.firmware (.fwOk ⟨ic, ver, rev, sup⟩)) }

/-- 42_session R155: one call, and the UID taken out of its payload by the rule's tests in the rule's order (the
spec's decision D27 is the last of them). -/
def Obligations.ReadTargetIsCall : Prop :=
  ∀ s : State, ∃ (r : CallResult) (t : State),
    exec (.call 0x4A#8 [0x01#8, s.params.baudRateCode] 19 s.params.shortTimeout) s =
      .next { t with result := some (.called r) } ∧
    (r = .noResponse → exec .readTarget s = .next { t with result := some (.target none .statusOk) }) ∧
    (∀ k, r = .protocolViolation k →
      exec .readTarget s = .next { t with result := some (.target none (.statusViolation k)) }) ∧
    (r = .refused → exec .readTarget s = .next { t with result := some (.target none .statusRefused) }) ∧
    (∀ k, r ≠ .badRequest k) ∧
    ∀ p, r = .ok p → exec .readTarget s = .next { t with result := some (.target
      (if p.length < 1 ∨ p.getD 0 0#8 ≠ 0x01#8 then none
      else if p.length < s.params.uidLenOffset + 1 then none
      else if p.length < s.params.uidLenOffset + 1 + (p.getD s.params.uidLenOffset 0#8).toNat then none
      else if (p.getD s.params.uidLenOffset 0#8).toNat ∉ [4, 7, 10] then none
      else some ((p.drop (s.params.uidLenOffset + 1)).take (p.getD s.params.uidLenOffset 0#8).toNat)) .statusOk) }

/-- `READ_TARGET` completes: one target whose TagUID stands after its length byte at `UID_LEN_OFFSET` (R155, R69). -/
def Obligations.ReadTargetCompletes : Prop :=
  ∀ (s : State) (metadata uid more : Bytes) (ws : List WriteDraw) (rest : List Bytes),
    s.sessionState = .ready → isTagUid uid = true → s.params.uidLenOffset = metadata.length + 1 →
    metadata.length + uid.length + more.length ≤ 17 → s.line.writeDraws = writeOkDraw :: ws →
    s.line.arrivals = answer (replyFrame 0x4A#8
      ([0x01#8] ++ metadata ++ [BitVec.ofNat 8 uid.length] ++ uid ++ more)) ++ rest →
    exec .readTarget s = .next { s with
      line := { s.line with
        rxbuf := [], txlog := s.line.txlog ++ commandFrame 0x4A#8 [0x01#8, s.params.baudRateCode],
        writeDraws := ws, arrivals := rest },
      result := some (.target (some uid) .statusOk) }

/-! ### Tracker -/

/-- 43_tracker R170, row by row, for every raw poll result (R169); that the counter keeps its value at a removal is the
spec's decision D30. -/
def Obligations.TrackerStepTable : Prop :=
  ∀ s : State,
    (∀ uid, isTagUid uid = true → s.tracker.presence = .absent → exec (.trackerStep (some uid)) s = .next { s with
      tracker := { presence := .present uid, missCnt := 0 }, result := some (.event (some (.tagAppeared uid))) }) ∧
    (∀ u uid, isTagUid uid = true → s.tracker.presence = .present u → uid ≠ u →
      exec (.trackerStep (some uid)) s = .next { s with
      tracker := { presence := .present uid, missCnt := 0 }, result := some (.event (some (.tagChanged u uid))) }) ∧
    (∀ u, isTagUid u = true → s.tracker.presence = .present u → exec (.trackerStep (some u)) s = .next { s with
      tracker := { presence := .present u, missCnt := 0 }, result := some (.event none) }) ∧
    (∀ u, s.tracker.presence = .present u → s.tracker.missCnt + 1 ≥ s.params.threshold →
      exec (.trackerStep none) s = .next { s with
        tracker := { presence := .absent, missCnt := s.tracker.missCnt + 1 },
        result := some (.event (some (.tagRemoved u))) }) ∧
    (∀ u, s.tracker.presence = .present u → s.tracker.missCnt + 1 < s.params.threshold →
      exec (.trackerStep none) s = .next { s with
        tracker := { presence := .present u, missCnt := s.tracker.missCnt + 1 }, result := some (.event none) }) ∧
    (s.tracker.presence = .absent → exec (.trackerStep none) s = .next { s with result := some (.event none) })

/-- `TRACKER_STEP` of a sequence that is no TagUID, for which the spec states no result (R169), completes: some TagUID is
taken in its place, and everything else is R170's of a hit on that TagUID. That it runs so is the model's choice (log entry
22), and which TagUID it is stays open. -/
def Obligations.TrackerStepOther : Prop :=
  ∀ (u : Bytes) (s : State), isTagUid u = false → ∃ v : Bytes, isTagUid v = true ∧
    exec (.trackerStep (some u)) s = .next { s with
      tracker := { presence := .present v, missCnt := 0 }, uidCount := s.uidCount + 1,
      result := some (.event (match s.tracker.presence with
        | .absent => some (.tagAppeared v)
        | .present w => if v = w then none else some (.tagChanged w v))) }

/-- 43_tracker R171, whose sentence on a general `m` is the spec's inference from R170 and R21 (log entry 13): from
`Present(u)` with `m` misses counted, no removal before the `(THRESHOLD - m)`-th consecutive
miss, exactly one at it and none after it; and a different UID is a change at once whatever `m` is. -/
def Obligations.DebounceProperties : Prop :=
  ∀ (th m : Nat) (u : Bytes), m < th →
    (∀ k, m + k < th → trackerRun th (List.replicate k none) { presence := .present u, missCnt := m } =
      (List.replicate k none, { presence := .present u, missCnt := m + k })) ∧
    (∀ j, trackerRun th (List.replicate (th - m + j) none) { presence := .present u, missCnt := m } =
      (List.replicate (th - m - 1) none ++ [some (.tagRemoved u)] ++ List.replicate j none,
        { presence := .absent, missCnt := th })) ∧
    (∀ v, v ≠ u → ∀ m', trackerStep th (some v) { presence := .present u, missCnt := m' } =
      (some (.tagChanged u v), { presence := .present v, missCnt := 0 }))

/-- 43_tracker R175: a read of the target, then exactly one tracker step on what it read; the status beside the event is
the spec's decision D29. -/
def Obligations.PollIsReadThenStep : Prop :=
  ∀ s : State, ∃ (uid : Option Bytes) (st : PollStatus) (t u : State) (e : Option PresenceEvent),
    exec .readTarget s = .next { t with result := some (.target uid st) } ∧
    exec (.trackerStep uid) t = .next { u with result := some (.event e) } ∧
    exec .poll s = .next { u with result := some (.polled e st) }

/-- A poll completes: with the session ready, no tag present and a device that reports one target, the tag appears
(R175, R170, R155). -/
def Obligations.PollCompletes : Prop :=
  ∀ (s : State) (metadata uid : Bytes) (ws : List WriteDraw) (rest : List Bytes),
    s.sessionState = .ready → s.tracker.presence = .absent → isTagUid uid = true →
    s.params.uidLenOffset = metadata.length + 1 → metadata.length + uid.length ≤ 17 →
    s.line.writeDraws = writeOkDraw :: ws →
    s.line.arrivals = answer (replyFrame 0x4A#8
      ([0x01#8] ++ metadata ++ [BitVec.ofNat 8 uid.length] ++ uid)) ++ rest →
    exec .poll s = .next { s with
      line := { s.line with
        rxbuf := [], txlog := s.line.txlog ++ commandFrame 0x4A#8 [0x01#8, s.params.baudRateCode],
        writeDraws := ws, arrivals := rest },
      tracker := { presence := .present uid, missCnt := 0 },
      result := some (.polled (some (.tagAppeared uid)) .statusOk) }

/-- Polling a session that is not `Ready` never touches the wire and is a miss to the tracker, so a present tag is
reported removed at the threshold (R175 corner case a, R234). -/
def Obligations.PollNotReady : Prop :=
  ∀ (s : State) (u : Bytes), s.sessionState ≠ .ready → s.tracker.presence = .present u →
    exec .poll s = .next
      (if s.tracker.missCnt + 1 ≥ s.params.threshold then
        { s with tracker := { presence := .absent, missCnt := s.tracker.missCnt + 1 },
                 result := some (.polled (some (.tagRemoved u)) .statusRefused) }
      else
        { s with tracker := { presence := .present u, missCnt := s.tracker.missCnt + 1 },
                 result := some (.polled none .statusRefused) })

/-- 43_tracker R178: the length, the two upper-case digits of every byte in UID order, and the separators. -/
def Obligations.FormatUidString : Prop :=
  ∀ (uid : Bytes) (s : State), isTagUid uid = true → ∃ cs : List Char,
    exec (.formatUid uid) s = .next { s with result := some (.text cs) } ∧
    cs.length = 3 * uid.length - 1 ∧
    ∀ (k : Nat) (b : Byte), uid[k]? = some b →
      cs[3 * k]? = ['0', '1', '2', '3', '4', '5', '6', '7', '8', '9', 'A', 'B', 'C', 'D', 'E', 'F'][b.toNat / 16]? ∧
      cs[3 * k + 1]? = ['0', '1', '2', '3', '4', '5', '6', '7', '8', '9', 'A', 'B', 'C', 'D', 'E', 'F'][b.toNat % 16]? ∧
      (k + 1 < uid.length → cs[3 * k + 2]? = some ':')

/-! ### Wire patterns and status outputs -/

/-- The five transmit patterns go out by the write of that channel, byte for byte (layouts of R62, R65, R67, R68, R69; that
such a row is a write is the model's choice, log entry 4). -/
def Obligations.WireTransmit : Prop :=
  ∀ (s : State) (d : WriteDraw) (ws : List WriteDraw), s.line.writeDraws = d :: ws →
    let sent (bs : Bytes) : Host.Outcome State Fault Refusal := .next { s with
      line := { s.line with
        rxbuf := d.arrived, txlog := s.line.txlog ++ (if d.ok then bs else bs.take d.sent), writeDraws := ws },
      result := some (.written (if d.ok then .writeOk else .writeFailed)) }
    (∀ op ps, ps.length ≤ 252 → exec (.frameCommand op ps) s =
      sent ([0x00#8, 0x00#8, 0xFF#8, BitVec.ofNat 8 (ps.length + 2), BitVec.ofNat 8 (254 - ps.length), 0xD4#8, op] ++
        ps ++ [neg8 (0xD4 + op.toNat + byteSum ps), 0x00#8])) ∧
    (∀ n55 n00, exec (.wakeBytes n55 n00) s = sent (List.replicate n55 0x55#8 ++ List.replicate n00 0x00#8)) ∧
    exec .cmdGetFirmwareVersion s = sent [0x00#8, 0x00#8, 0xFF#8, 0x02#8, 0xFE#8, 0xD4#8, 0x02#8, 0x2A#8, 0x00#8] ∧
    exec .cmdSamConfiguration s =
      sent [0x00#8, 0x00#8, 0xFF#8, 0x05#8, 0xFB#8, 0xD4#8, 0x14#8, 0x01#8, 0x14#8, 0x01#8, 0x02#8, 0x00#8] ∧
    (∀ bb, exec (.cmdInListPassiveTarget bb) s =
      sent [0x00#8, 0x00#8, 0xFF#8, 0x04#8, 0xFC#8, 0xD4#8, 0x4A#8, 0x01#8, bb, neg8 (0x1F + bb.toNat), 0x00#8])

/-- The two receive patterns are appended to `rxbuf` byte for byte (layouts of R63, R64; R16, R44; log entry 4), and a
response frame sent as an answer to `op` decodes to its result bytes. -/
def Obligations.WireReceive : Prop :=
  ∀ s : State,
    exec .frameAck s = .next { s with
      line := { s.line with rxbuf := s.line.rxbuf ++ [0x00#8, 0x00#8, 0xFF#8, 0x00#8, 0xFF#8, 0x00#8] } } ∧
    ∀ (z : Nat) (echo : Byte) (results trail : Bytes), results.length ≤ 253 →
      let bs : Bytes := List.replicate z 0x00#8 ++ [0xFF#8, BitVec.ofNat 8 (results.length + 2),
        BitVec.ofNat 8 (254 - results.length), 0xD5#8, echo] ++ results ++
        [BitVec.ofNat 8 ((256 - (0xD5 + echo.toNat + byteSum results) % 256) % 256)] ++ trail
      exec (.frameResponse z echo results trail) s =
        .next { s with line := { s.line with rxbuf := s.line.rxbuf ++ bs } } ∧
      ∀ op : Byte, 1 ≤ z → echo.toNat = (op.toNat + 1) % 256 → decodeResponse bs op = .ok results

/-- 10_state R13, which the spec derives from R11 and R20 (D1): the three status bits. -/
def Obligations.StatusBits : Prop :=
  ∀ s : State,
    (s.busy = true ↔ s.sessionState = .busy ∨ s.sessionState = .awaitingWakeup) ∧
    (s.faulted = true ↔ s.sessionState = .faulted) ∧
    (s.tagPresent = true ↔ s.tracker.presence ≠ .absent)

/-- 10_state R23: the bit patterns of the enumerations, the spec's own choice (D35); and the class column of 60_exceptions
R191. -/
def Obligations.EnumerationCodes : Prop :=
  ([SessionState.uninitialized, .awaitingWakeup, .ready, .busy, .faulted].map SessionState.code =
    [0#3, 1#3, 2#3, 3#3, 4#3]) ∧
  faultCode none = 0#4 ∧
  ([ErrorKind.invalidParameterCount, .missingStartCode, .lengthChecksumMismatch, .dataChecksumMismatch,
    .unexpectedResponse, .truncatedFrame, .badAck, .noData, .timeout, .writeFailed, .initFailed, .refused,
    .configurationError].map (fun k => faultCode (some k)) =
    [1#4, 2#4, 3#4, 4#4, 5#4, 6#4, 7#4, 8#4, 9#4, 10#4, 11#4, 12#4, 13#4]) ∧
  (ErrorKind.invalidParameterCount.errorClass = .callerError ∧
    (∀ k ∈ [ErrorKind.missingStartCode, .lengthChecksumMismatch, .dataChecksumMismatch, .unexpectedResponse,
      .truncatedFrame, .badAck], k.errorClass = .protocolViolation) ∧
    ErrorKind.noData.errorClass = .transient ∧ ErrorKind.timeout.errorClass = .transient ∧
    ErrorKind.writeFailed.errorClass = .handled ∧ ErrorKind.initFailed.errorClass = .sessionFatal ∧
    ErrorKind.refused.errorClass = .notAWireError ∧ ErrorKind.configurationError.errorClass = .construction) ∧
  (∀ k : ErrorKind, k.code ≠ 0#4 ∧ k.code ≠ 14#4 ∧ k.code ≠ 15#4) ∧
  (∀ v : SessionState, v.code.toNat ≤ 4) ∧
  (∀ u v : Bytes, eventCode none = 0#2 ∧ eventCode (some (.tagAppeared u)) = 1#2 ∧
    eventCode (some (.tagChanged u v)) = 2#2 ∧ eventCode (some (.tagRemoved u)) = 3#2) ∧
  uidLenCode .absent = 0#4 ∧
  ∀ u : Bytes, isTagUid u = true → (uidLenCode (.present u)).toNat = u.length

/-- When a step is refused, and that it never stops in any other way: wire bytes that no well-formed instruction is encoded
as, and parameters the spec excludes, and these always. Every request is answered, whatever its operands; one with an
unknown `op_sel` by the result `Refused` (30_encoding R72). The two refusals are the model's choices (log entries 4 and 5). -/
def Obligations.StepRefusals : Prop :=
  (∀ s : State, (∃ t, step s = .next t) ∨
    (step s = .refused .notAWirePattern ∧
      ∃ bs rest, s.script = .present (.wire bs) :: rest ∧ ∀ i : Instr, i.WellFormed → encode i ≠ .wire bs) ∨
    (step s = .refused .invalidParameters ∧ ∃ p rest, s.script = .configure p :: rest ∧ ¬ p.Valid)) ∧
  (∀ (s : State) (bs : Bytes) (rest : List Move), s.script = .present (.wire bs) :: rest →
    (∀ i : Instr, i.WellFormed → encode i ≠ .wire bs) → step s = .refused .notAWirePattern) ∧
  (∀ (s : State) (p : Params) (rest : List Move), s.script = .configure p :: rest → ¬ p.Valid →
    step s = .refused .invalidParameters) ∧
  ∀ (s : State) (r : Request) (rest : List Move), s.script = .present (.request r) :: rest → ∃ t, step s = .next t
end

