-- ==== Sys2Proof/Laws/Codec.lean ====
section
/-! SUPPORT. Checksums, layouts and the decoders of FrameCodec (30_encoding R60 to R64, 40_framecodec R90 to R99). -/

namespace Sys2Proof

/-! ### Sums -/

@[simp] theorem byteSum_nil : byteSum [] = 0 := rfl

@[simp] theorem byteSum_cons (b : Byte) (bs : Bytes) : byteSum (b :: bs) = b.toNat + byteSum bs := rfl

@[simp] theorem byteSum_append (a b : Bytes) : byteSum (a ++ b) = byteSum a + byteSum b := by
  induction a with
  | nil => simp
  | cons x xs ih => simp [ih, Nat.add_assoc]

/-- Replacing one byte changes the sum by the difference of the two bytes. -/
theorem byteSum_set (bs : Bytes) (j : Nat) (v : Byte) (h : j < bs.length) :
    byteSum (bs.set j v) + bs[j].toNat = byteSum bs + v.toNat := by
  induction bs generalizing j with
  | nil => simp at h
  | cons x xs ih =>
    cases j with
    | zero => simp; omega
    | succ j =>
      have := ih j (by simpa using h)
      simp only [List.set_cons_succ, byteSum_cons, List.getElem_cons_succ]
      omega

/-- A number and its `neg8` sum to 0 mod 256 (R61, R76a). -/
theorem add_neg8_mod (x : Nat) : (x + (neg8 x).toNat) % 256 = 0 := by
  simp only [neg8, BitVec.toNat_ofNat]; omega

theorem neg8_toNat (x : Nat) : (neg8 x).toNat = (256 - x % 256) % 256 := by
  simp only [neg8, BitVec.toNat_ofNat]; omega

@[simp] theorem ofNat8_toNat (x : Nat) : (BitVec.ofNat 8 x).toNat = x % 256 := by simp

/-! ### Leading bytes -/

@[simp] theorem leadingCount_nil (v : Byte) : leadingCount v [] = 0 := rfl

theorem leadingCount_cons_ne {v b : Byte} (h : b ≠ v) (bs : Bytes) : leadingCount v (b :: bs) = 0 := by
  simp [leadingCount, h]

/-- A run of `v` before something that does not begin with `v` is counted exactly. -/
theorem leadingCount_replicate (v : Byte) (z : Nat) (rest : Bytes) (h : rest.head? ≠ some v) :
    leadingCount v (List.replicate z v ++ rest) = z := by
  induction z with
  | zero =>
    cases rest with
    | nil => rfl
    | cons b bs =>
      have hb : b ≠ v := by simpa using h
      simpa using leadingCount_cons_ne hb bs
  | succ z ih =>
    rw [List.replicate_succ, List.cons_append, leadingCount, if_pos rfl, ih]

/-- Every sequence is its leading run of `v` and a rest that does not begin with `v`. -/
theorem leadingCount_split (v : Byte) (b : Bytes) :
    b = List.replicate (leadingCount v b) v ++ b.drop (leadingCount v b) ∧
      (b.drop (leadingCount v b)).head? ≠ some v := by
  induction b with
  | nil => simp
  | cons x xs ih =>
    by_cases hx : x = v
    · subst hx
      obtain ⟨h1, h2⟩ := ih
      have e : leadingCount x (x :: xs) = leadingCount x xs + 1 := by simp [leadingCount]
      rw [e, List.replicate_succ, List.drop_succ_cons, List.cons_append, ← h1]
      exact ⟨rfl, h2⟩
    · rw [leadingCount_cons_ne hx]
      simp [hx]

/-! ### Layouts -/

@[simp] theorem informationFrame_length (tfi : Byte) (data : Bytes) :
    (informationFrame tfi data).length = data.length + 8 := by
  simp [informationFrame]

/-- A command frame is `len(params) + 9` bytes (R62, R91). -/
@[simp] theorem commandFrame_length (opcode : Byte) (params : Bytes) :
    (commandFrame opcode params).length = params.length + 9 := by
  simp [commandFrame]

/-- The bytes of a command frame, in order (R62). -/
theorem commandFrame_eq (opcode : Byte) (params : Bytes) :
    commandFrame opcode params =
      [0x00#8, 0x00#8, 0xFF#8, BitVec.ofNat 8 (params.length + 2), neg8 (params.length + 2), 0xD4#8, opcode] ++ params ++
        [neg8 (0xD4 + opcode.toNat + byteSum params), 0x00#8] := by
  simp [commandFrame, informationFrame, zeroByte, startByte, tfiHost, Nat.add_assoc]

@[simp] theorem responseFrame_length (zeros : Nat) (echo : Byte) (results trail : Bytes) :
    (responseFrame zeros echo results trail).length = zeros + results.length + 6 + trail.length := by
  simp [responseFrame]; omega

@[simp] theorem echoOf_toNat (opcode : Byte) : (echoOf opcode).toNat = (opcode.toNat + 1) % 256 := by
  simp [echoOf]

/-! ### Results of the functions -/

namespace Machine

theorem encodeCommand_ok (opcode : Byte) {params : Bytes} (h : params.length ≤ 252) :
    encodeCommand opcode params = .ok (commandFrame opcode params) := by
  unfold encodeCommand maxParams; rw [if_neg (by omega)]

theorem encodeCommand_error (opcode : Byte) {params : Bytes} (h : 252 < params.length) :
    encodeCommand opcode params = .error .invalidParameterCount := by
  unfold encodeCommand maxParams; rw [if_pos (by omega)]

theorem decodeAck_iff (b : Bytes) : decodeAck b = true ↔ b = ackBytes := by simp [decodeAck]

theorem decodeAck_false_iff (b : Bytes) : decodeAck b = false ↔ b ≠ ackBytes := by simp [decodeAck]

/-- The decoder after its first step, on an input whose leading zeros are set apart. -/
theorem decodeResponse_split (z : Nat) (rest : Bytes) (opcode : Byte) (h : rest.head? ≠ some 0x00#8) :
    decodeResponse (List.replicate z 0x00#8 ++ rest) opcode =
      if z = 0 then .error .missingStartCode else decodeStart rest opcode := by
  have hl : leadingCount zeroByte (List.replicate z 0x00#8 ++ rest) = z := leadingCount_replicate 0x00#8 z rest h
  have hd : (List.replicate z 0x00#8 ++ rest).drop z = rest := List.drop_left' (by simp)
  simp only [decodeResponse, hl, hd]

/-- Every failure of `decode_response` is a violation kind (60_exceptions R193). -/
theorem decodePayload_kind {len : Nat} {w : Bytes} {op : Byte} {k : ErrorKind}
    (h : decodePayload len w op = .error k) : k = .unexpectedResponse := by
  unfold decodePayload at h
  split at h
  · cases h; rfl
  · split at h
    · cases h; rfl
    · split at h <;> cases h; rfl

theorem decodeWindow_kind {len : Nat} {r : Bytes} {op : Byte} {k : ErrorKind} (h : decodeWindow len r op = .error k) :
    k = .truncatedFrame ∨ k = .dataChecksumMismatch ∨ k = .unexpectedResponse := by
  unfold decodeWindow at h
  split at h
  · cases h; exact .inl rfl
  · split at h
    · cases h; exact .inr (.inl rfl)
    · exact .inr (.inr (decodePayload_kind h))

theorem decodeHeader_kind {r : Bytes} {op : Byte} {k : ErrorKind} (h : decodeHeader r op = .error k) :
    k = .truncatedFrame ∨ k = .lengthChecksumMismatch ∨ k = .dataChecksumMismatch ∨ k = .unexpectedResponse := by
  unfold decodeHeader at h
  split at h
  · split at h
    · cases h; exact .inr (.inl rfl)
    · rcases decodeWindow_kind h with h | h | h <;> simp [h]
  · cases h; exact .inl rfl

theorem decodeResponse_kind {b : Bytes} {op : Byte} {k : ErrorKind} (h : decodeResponse b op = .error k) :
    k = .missingStartCode ∨ k = .truncatedFrame ∨ k = .lengthChecksumMismatch ∨ k = .dataChecksumMismatch ∨
      k = .unexpectedResponse := by
  unfold decodeResponse at h
  simp only at h
  split at h
  · cases h; exact .inl rfl
  · unfold decodeStart at h
    split at h
    · cases h; exact .inl rfl
    · split at h
      · cases h; exact .inl rfl
      · exact .inr (decodeHeader_kind h)

/-- The decoder on a frame laid out as R63 with any bytes in the window. -/
theorem decodeResponse_window (z : Nat) (len : Nat) (window trail : Bytes) (op : Byte) (hz : 1 ≤ z) (hl : len < 256)
    (hw : window.length = len + 1) :
    decodeResponse (List.replicate z 0x00#8 ++ ([0xFF#8, BitVec.ofNat 8 len, neg8 len] ++ window ++ trail)) op =
      if byteSum window % 256 ≠ 0 then .error .dataChecksumMismatch else decodePayload len window op := by
  rw [decodeResponse_split z _ op (by simp), if_neg (by omega)]
  have hm : (BitVec.ofNat 8 len).toNat = len := by rw [ofNat8_toNat]; exact Nat.mod_eq_of_lt hl
  have ht : (window ++ trail).take (len + 1) = window := by rw [← hw]; exact List.take_left
  have hlen : ¬ (window ++ trail).length < len + 1 := by rw [List.length_append, hw]; omega
  have hc : ¬ (len + (neg8 len).toNat) % 256 ≠ 0 := by simp [add_neg8_mod]
  simp only [List.cons_append, List.nil_append, decodeStart, startByte, decodeHeader, hm, decodeWindow, ht]
  rw [if_neg (by decide), if_neg hc, if_neg hlen]

/-- The window of a response frame. -/
def responseWindow (echo : Byte) (results : Bytes) : Bytes :=
  [0xD5#8, echo] ++ results ++ [neg8 (0xD5 + echo.toNat + byteSum results)]

theorem responseFrame_eq (z : Nat) (echo : Byte) (results trail : Bytes) :
    responseFrame z echo results trail =
      List.replicate z 0x00#8 ++ ([0xFF#8, BitVec.ofNat 8 (results.length + 2), neg8 (results.length + 2)] ++
        responseWindow echo results ++ trail) := by
  simp [responseFrame, responseWindow, zeroByte, startByte, tfiDevice]

theorem responseWindow_length (echo : Byte) (results : Bytes) :
    (responseWindow echo results).length = results.length + 2 + 1 := by
  simp [responseWindow]

theorem responseWindow_sum (echo : Byte) (results : Bytes) : byteSum (responseWindow echo results) % 256 = 0 := by
  have := add_neg8_mod (0xD5 + echo.toNat + byteSum results)
  simp [responseWindow]
  omega

/-- A response frame decodes to its result bytes under the opcode it echoes (R63, R96). -/
theorem decodeResponse_responseFrame (z : Nat) (op : Byte) (results trail : Bytes) (hz : 1 ≤ z)
    (hr : results.length ≤ 253) :
    decodeResponse (responseFrame z (echoOf op) results trail) op = .ok results := by
  rw [responseFrame_eq, decodeResponse_window z _ _ _ op hz (by omega) (responseWindow_length _ _),
    if_neg (by simp [responseWindow_sum])]
  simp [decodePayload, responseWindow, tfiDevice]

end Machine

end Sys2Proof
end

