-- ==== Sys2Proof/Laws/Decode.lean ====
section
/-! SUPPORT. What the wire decoder reads from the layouts of 30_encoding (R62 to R65): each is read as itself, and no two are
the same bytes. -/

namespace Sys2Proof.Machine

/-- A command frame is read as itself (R62). -/
theorem parseCommand_commandFrame (op : Byte) (ps : Bytes) (hp : ps.length ≤ 252) :
    parseCommand (commandFrame op ps) = some (.frameCommand op ps) := by
  have h1 : (commandFrame op ps).getD 6 zeroByte = op := by rw [commandFrame_eq]; rfl
  have h2 : ((commandFrame op ps).drop 7).take ((commandFrame op ps).length - 9) = ps := by
    rw [commandFrame_length]; rw [commandFrame_eq]; simp
  unfold parseCommand
  simp only [h1, h2]
  rw [if_pos ⟨hp, trivial⟩]

/-- A command frame determines its opcode and parameters (R91). -/
theorem commandFrame_inj {op op' : Byte} {ps ps' : Bytes} (h : commandFrame op ps = commandFrame op' ps') :
    op = op' ∧ ps = ps' := by
  have hl := congrArg List.length h
  simp at hl
  rw [commandFrame_eq, commandFrame_eq] at h
  simp only [List.cons_append, List.nil_append, List.cons.injEq] at h
  obtain ⟨-, -, -, -, -, -, h1, h2⟩ := h
  exact ⟨h1, (List.append_inj h2 hl).1⟩

/-- The ACK is no command frame. -/
theorem ack_ne_commandFrame (op : Byte) (ps : Bytes) : ackBytes ≠ commandFrame op ps := by
  intro h; have := congrArg List.length h; simp [ackBytes] at this

/-- A preamble is read as itself (R65). -/
theorem parseWake_wakePattern (a b : Nat) (ha : 1 ≤ a) (hb : 1 ≤ b) :
    parseWake (wakePattern a b) = some (.wakeBytes a b) := by
  have h1 : leadingCount 0x55#8 (wakePattern a b) = a := by
    apply leadingCount_replicate
    cases b with
    | zero => simp
    | succ b => simp [List.replicate_succ]
  have h2 : (wakePattern a b).length - a = b := by simp [wakePattern]
  unfold parseWake
  simp only [h1, h2]
  rw [if_pos ⟨ha, hb, trivial⟩]

/-- A response frame is read as itself (R63). -/
theorem parseResponse_responseFrame (z : Nat) (e : Byte) (r t : Bytes) (hz : 1 ≤ z) (hr : r.length ≤ 253) :
    parseResponse (responseFrame z e r t) = some (.frameResponse z e r t) := by
  have h0 : leadingCount zeroByte (responseFrame z e r t) = z := by
    rw [responseFrame_eq]; exact leadingCount_replicate _ _ _ (by simp [zeroByte])
  have h1 : (responseFrame z e r t).getD (z+1) zeroByte = BitVec.ofNat 8 (r.length+2) := by
    rw [responseFrame_eq]; simp [List.getD]
  have h2 : (responseFrame z e r t).getD (z+4) zeroByte = e := by
    rw [responseFrame_eq, responseWindow]; simp [List.getD]
  have h3 : ((responseFrame z e r t).drop (z+5)).take r.length = r := by
    have : responseFrame z e r t = (List.replicate z 0x00#8 ++ [0xFF#8, BitVec.ofNat 8 (r.length + 2),
        neg8 (r.length + 2), 0xD5#8, e]) ++ (r ++ ([neg8 (0xD5 + e.toNat + byteSum r)] ++ t)) := by
      rw [responseFrame_eq, responseWindow]; simp
    rw [this, List.drop_left' (by simp), List.take_left]
  have h4 : (responseFrame z e r t).drop (z+6+r.length) = t := by
    have : responseFrame z e r t = (List.replicate z 0x00#8 ++ [0xFF#8, BitVec.ofNat 8 (r.length + 2),
        neg8 (r.length + 2), 0xD5#8, e] ++ r ++ [neg8 (0xD5 + e.toNat + byteSum r)]) ++ t := by
      rw [responseFrame_eq, responseWindow]; simp
    rw [this, List.drop_left' (by simp; omega)]
  have hm : (r.length + 2) % 256 - 2 = r.length := by omega
  unfold parseResponse
  simp only [h0, h1, h2, ofNat8_toNat, hm, h3, h4]
  rw [if_pos ⟨hz, trivial⟩]

/-- The ACK is no response frame (R64). -/
theorem responseFrame_ne_ack {z : Nat} {e : Byte} {r t : Bytes} (hz : 1 ≤ z) :
    responseFrame z e r t ≠ ackBytes := by
  intro h
  have hd : decodeResponse (responseFrame z e r t) 0 = .error .lengthChecksumMismatch := by rw [h]; rfl
  have he : responseFrame z e r t = List.replicate z 0x00#8 ++
      (0xFF#8 :: BitVec.ofNat 8 (r.length + 2) :: neg8 (r.length + 2) :: (responseWindow e r ++ t)) := by
    rw [responseFrame_eq]; simp
  rw [he, decodeResponse_split z _ _ (by simp), if_neg (by omega)] at hd
  have hc : ¬ ((BitVec.ofNat 8 (r.length+2)).toNat + (neg8 (r.length + 2)).toNat) % 256 ≠ 0 := by
    rw [ofNat8_toNat]; have := add_neg8_mod (r.length + 2); omega
  simp only [decodeStart, startByte, decodeHeader] at hd
  split at hd
  · rename_i hx; exact hx rfl
  rcases decodeWindow_kind hd with h | h | h <;> cases h

/-- A response frame is no command frame: the TFI differs (R60). -/
theorem responseFrame_ne_command {z : Nat} {e : Byte} {r t : Bytes} (op : Byte) (ps : Bytes) :
    responseFrame z e r t ≠ commandFrame op ps := by
  intro h
  rw [responseFrame_eq, commandFrame_eq, responseWindow] at h
  match z with
  | 0 => simp at h
  | 1 => simp [List.replicate] at h
  | 2 => simp [List.replicate] at h
  | n + 3 => simp [List.replicate_succ] at h

/-- A response frame is not read as a command frame. -/
theorem parseCommand_responseFrame {z : Nat} {e : Byte} {r t : Bytes} :
    parseCommand (responseFrame z e r t) = none := by
  unfold parseCommand
  simp only
  rw [if_neg]
  rintro ⟨-, h⟩
  exact responseFrame_ne_command _ _ h

/-- A response frame is not read as a preamble. -/
theorem parseWake_responseFrame {z : Nat} {e : Byte} {r t : Bytes} :
    parseWake (responseFrame z e r t) = none := by
  unfold parseWake
  simp only
  rw [if_neg]
  rintro ⟨h1, h2, -⟩
  rw [responseFrame_eq] at h1
  cases z <;> simp [List.replicate_succ, leadingCount] at h1

end Sys2Proof.Machine
end

