-- ==== Sys2Proof/Laws/PerInstr.lean ====
section
/-! SUPPORT. Per instruction: its code begins with the fixed bits its row of spec/opcode_table.json gives it. -/

namespace Sys2Proof.Laws

/-- What a row of the table fixes: the operation select, or the first bytes on the wire. -/
inductive RowPattern where
  | opSel (v : BitVec 5)
  | firstBytes (bs : Bytes)
  | anyResponse

/-- The row of an instruction (its match and mask columns). -/
def rowPattern : Instr → RowPattern
  | .encodeCommand _ _ => .opSel 0b00001#5
  | .decodeAck _ => .opSel 0b00010#5
  | .decodeResponse _ _ => .opSel 0b00011#5
  | .clearAndWrite _ => .opSel 0b00100#5
  | .readExactAvailable _ => .opSel 0b00101#5
  | .waitForData _ => .opSel 0b00110#5
  | .resetSequence => .opSel 0b00111#5
  | .initSession => .opSel 0b01000#5
  | .wakeup => .opSel 0b01001#5
  | .exchange _ _ _ _ => .opSel 0b01010#5
  | .call _ _ _ _ => .opSel 0b01011#5
  | .getFirmwareVersion => .opSel 0b01100#5
  | .samConfiguration => .opSel 0b01101#5
  | .readTarget => .opSel 0b01110#5
  | .trackerStep _ => .opSel 0b10000#5
  | .poll => .opSel 0b10001#5
  | .formatUid _ => .opSel 0b10010#5
  | .frameCommand _ _ => .firstBytes [0x00#8, 0x00#8, 0xFF#8]
  | .frameResponse _ _ _ _ => .anyResponse
  | .frameAck => .firstBytes [0x00#8, 0x00#8, 0xFF#8, 0x00#8, 0xFF#8, 0x00#8]
  | .wakeBytes _ _ => .firstBytes [0x55#8]
  | .cmdGetFirmwareVersion => .firstBytes [0x00#8, 0x00#8, 0xFF#8, 0x02#8, 0xFE#8, 0xD4#8, 0x02#8, 0x2A#8, 0x00#8]
  | .cmdSamConfiguration => .firstBytes [0x00#8, 0x00#8, 0xFF#8, 0x05#8, 0xFB#8, 0xD4#8, 0x14#8, 0x01#8, 0x14#8, 0x01#8, 0x02#8, 0x00#8]
  | .cmdInListPassiveTarget _ => .firstBytes [0x00#8, 0x00#8, 0xFF#8, 0x04#8, 0xFC#8, 0xD4#8, 0x4A#8, 0x01#8]

/-- The code of an instruction has its row's fixed bits. -/
def matchesRow (c : Code) : RowPattern → Prop
  | .opSel v => ∃ r, c = .request r ∧ r.opSel = v
  | .firstBytes bs => ∃ rest, c = .wire (bs ++ rest)
  | .anyResponse => ∃ zeros len lcs rest,
      c = .wire (List.replicate zeros 0x00#8 ++ [0xFF#8, len, lcs, 0xD5#8] ++ rest)

/-- A well-formed instruction's code has the fixed bits of its row of the table. -/
def TablePattern.Statement (i : Instr) : Prop := i.WellFormed → matchesRow (encode i) (rowPattern i)

theorem TablePattern.encodeCommand : ∀ o p, TablePattern.Statement (.encodeCommand o p) :=
  fun _ _ _ => ⟨_, rfl, rfl⟩

theorem TablePattern.decodeAck : ∀ b, TablePattern.Statement (.decodeAck b) :=
  fun _ _ => ⟨_, rfl, rfl⟩

theorem TablePattern.decodeResponse : ∀ b e, TablePattern.Statement (.decodeResponse b e) :=
  fun _ _ _ => ⟨_, rfl, rfl⟩

theorem TablePattern.clearAndWrite : ∀ b, TablePattern.Statement (.clearAndWrite b) :=
  fun _ _ => ⟨_, rfl, rfl⟩

theorem TablePattern.readExactAvailable : ∀ n, TablePattern.Statement (.readExactAvailable n) :=
  fun _ _ => ⟨_, rfl, rfl⟩

theorem TablePattern.waitForData : ∀ t, TablePattern.Statement (.waitForData t) :=
  fun _ _ => ⟨_, rfl, rfl⟩

theorem TablePattern.resetSequence : TablePattern.Statement (.resetSequence) :=
  fun _ => ⟨_, rfl, rfl⟩

theorem TablePattern.initSession : TablePattern.Statement (.initSession) :=
  fun _ => ⟨_, rfl, rfl⟩

theorem TablePattern.wakeup : TablePattern.Statement (.wakeup) :=
  fun _ => ⟨_, rfl, rfl⟩

theorem TablePattern.exchange : ∀ o p n t, TablePattern.Statement (.exchange o p n t) :=
  fun _ _ _ _ _ => ⟨_, rfl, rfl⟩

theorem TablePattern.call : ∀ o p n t, TablePattern.Statement (.call o p n t) :=
  fun _ _ _ _ _ => ⟨_, rfl, rfl⟩

theorem TablePattern.getFirmwareVersion : TablePattern.Statement (.getFirmwareVersion) :=
  fun _ => ⟨_, rfl, rfl⟩

theorem TablePattern.samConfiguration : TablePattern.Statement (.samConfiguration) :=
  fun _ => ⟨_, rfl, rfl⟩

theorem TablePattern.readTarget : TablePattern.Statement (.readTarget) :=
  fun _ => ⟨_, rfl, rfl⟩

theorem TablePattern.trackerStep : ∀ r, TablePattern.Statement (.trackerStep r) :=
  fun _ _ => ⟨_, rfl, rfl⟩

theorem TablePattern.poll : TablePattern.Statement (.poll) :=
  fun _ => ⟨_, rfl, rfl⟩

theorem TablePattern.formatUid : ∀ u, TablePattern.Statement (.formatUid u) :=
  fun _ _ => ⟨_, rfl, rfl⟩

theorem TablePattern.frameCommand : ∀ o p, TablePattern.Statement (.frameCommand o p) :=
  fun _ _ _ => ⟨_, rfl⟩

theorem TablePattern.frameResponse : ∀ z e r t, TablePattern.Statement (.frameResponse z e r t) :=
  fun z e r t _ => ⟨z, BitVec.ofNat 8 (r.length + 2), neg8 (r.length + 2), e :: (r ++ [neg8 (tfiDevice.toNat + e.toNat + byteSum r)] ++ t), by
    simp [encode, responseFrame, startByte, tfiDevice, zeroByte]⟩

theorem TablePattern.frameAck : TablePattern.Statement (.frameAck) :=
  fun _ => ⟨[], by decide⟩

theorem TablePattern.wakeBytes : ∀ a b, TablePattern.Statement (.wakeBytes a b) :=
  fun a b h => by
    obtain ⟨k, rfl⟩ : ∃ k, a = k + 1 := by
      simp only [Instr.WellFormed, Instr.wf, Bool.and_eq_true, decide_eq_true_eq] at h
      exact ⟨a - 1, by omega⟩
    exact ⟨wakePattern k b, rfl⟩

theorem TablePattern.cmdGetFirmwareVersion : TablePattern.Statement (.cmdGetFirmwareVersion) :=
  fun _ => ⟨[], by decide⟩

theorem TablePattern.cmdSamConfiguration : TablePattern.Statement (.cmdSamConfiguration) :=
  fun _ => ⟨[], by decide⟩

theorem TablePattern.cmdInListPassiveTarget : ∀ bb, TablePattern.Statement (.cmdInListPassiveTarget bb) :=
  fun _ _ => ⟨_, rfl⟩

end Sys2Proof.Laws
end

