-- ==== Sys2Proof/Laws/State.lean ====
section
/-! SUPPORT. One lemma per field per update of the state (Machine/Ops.lean), so that no later proof unfolds an update. -/

namespace Sys2Proof.Machine

/-! ### State -/

@[simp] theorem State.setSession_sessionState (s : State) (v : SessionState) : (s.setSession v).sessionState = v := rfl
@[simp] theorem State.setSession_faultKind (s : State) (v : SessionState) : (s.setSession v).faultKind = s.faultKind := rfl
@[simp] theorem State.setSession_line (s : State) (v : SessionState) : (s.setSession v).line = s.line := rfl
@[simp] theorem State.setSession_tracker (s : State) (v : SessionState) : (s.setSession v).tracker = s.tracker := rfl
@[simp] theorem State.setSession_params (s : State) (v : SessionState) : (s.setSession v).params = s.params := rfl
@[simp] theorem State.setSession_script (s : State) (v : SessionState) : (s.setSession v).script = s.script := rfl
@[simp] theorem State.setSession_result (s : State) (v : SessionState) : (s.setSession v).result = s.result := rfl
@[simp] theorem State.setSession_uidCount (s : State) (v : SessionState) : (s.setSession v).uidCount = s.uidCount := rfl

@[simp] theorem State.setLine_sessionState (s : State) (v : Line) : (s.setLine v).sessionState = s.sessionState := rfl
@[simp] theorem State.setLine_faultKind (s : State) (v : Line) : (s.setLine v).faultKind = s.faultKind := rfl
@[simp] theorem State.setLine_line (s : State) (v : Line) : (s.setLine v).line = v := rfl
@[simp] theorem State.setLine_tracker (s : State) (v : Line) : (s.setLine v).tracker = s.tracker := rfl
@[simp] theorem State.setLine_params (s : State) (v : Line) : (s.setLine v).params = s.params := rfl
@[simp] theorem State.setLine_script (s : State) (v : Line) : (s.setLine v).script = s.script := rfl
@[simp] theorem State.setLine_result (s : State) (v : Line) : (s.setLine v).result = s.result := rfl
@[simp] theorem State.setLine_uidCount (s : State) (v : Line) : (s.setLine v).uidCount = s.uidCount := rfl

@[simp] theorem State.setTracker_sessionState (s : State) (v : Tracker) : (s.setTracker v).sessionState = s.sessionState := rfl
@[simp] theorem State.setTracker_faultKind (s : State) (v : Tracker) : (s.setTracker v).faultKind = s.faultKind := rfl
@[simp] theorem State.setTracker_line (s : State) (v : Tracker) : (s.setTracker v).line = s.line := rfl
@[simp] theorem State.setTracker_tracker (s : State) (v : Tracker) : (s.setTracker v).tracker = v := rfl
@[simp] theorem State.setTracker_params (s : State) (v : Tracker) : (s.setTracker v).params = s.params := rfl
@[simp] theorem State.setTracker_script (s : State) (v : Tracker) : (s.setTracker v).script = s.script := rfl
@[simp] theorem State.setTracker_result (s : State) (v : Tracker) : (s.setTracker v).result = s.result := rfl
@[simp] theorem State.setTracker_uidCount (s : State) (v : Tracker) : (s.setTracker v).uidCount = s.uidCount := rfl

@[simp] theorem State.deliver_sessionState (s : State) (v : OpResult) : (s.deliver v).sessionState = s.sessionState := rfl
@[simp] theorem State.deliver_faultKind (s : State) (v : OpResult) : (s.deliver v).faultKind = s.faultKind := rfl
@[simp] theorem State.deliver_line (s : State) (v : OpResult) : (s.deliver v).line = s.line := rfl
@[simp] theorem State.deliver_tracker (s : State) (v : OpResult) : (s.deliver v).tracker = s.tracker := rfl
@[simp] theorem State.deliver_params (s : State) (v : OpResult) : (s.deliver v).params = s.params := rfl
@[simp] theorem State.deliver_script (s : State) (v : OpResult) : (s.deliver v).script = s.script := rfl
@[simp] theorem State.deliver_result (s : State) (v : OpResult) : (s.deliver v).result = some v := rfl
@[simp] theorem State.deliver_uidCount (s : State) (v : OpResult) : (s.deliver v).uidCount = s.uidCount := rfl

@[simp] theorem State.enterFaulted_sessionState (s : State) (v : ErrorKind) : (s.enterFaulted v).sessionState = .faulted := rfl
@[simp] theorem State.enterFaulted_faultKind (s : State) (v : ErrorKind) : (s.enterFaulted v).faultKind = some v := rfl
@[simp] theorem State.enterFaulted_line (s : State) (v : ErrorKind) : (s.enterFaulted v).line = s.line := rfl
@[simp] theorem State.enterFaulted_tracker (s : State) (v : ErrorKind) : (s.enterFaulted v).tracker = s.tracker := rfl
@[simp] theorem State.enterFaulted_params (s : State) (v : ErrorKind) : (s.enterFaulted v).params = s.params := rfl
@[simp] theorem State.enterFaulted_script (s : State) (v : ErrorKind) : (s.enterFaulted v).script = s.script := rfl
@[simp] theorem State.enterFaulted_result (s : State) (v : ErrorKind) : (s.enterFaulted v).result = s.result := rfl
@[simp] theorem State.enterFaulted_uidCount (s : State) (v : ErrorKind) : (s.enterFaulted v).uidCount = s.uidCount := rfl

@[simp] theorem State.clearFault_sessionState (s : State) : (s.clearFault).sessionState = s.sessionState := rfl
@[simp] theorem State.clearFault_faultKind (s : State) : (s.clearFault).faultKind = none := rfl
@[simp] theorem State.clearFault_line (s : State) : (s.clearFault).line = s.line := rfl
@[simp] theorem State.clearFault_tracker (s : State) : (s.clearFault).tracker = s.tracker := rfl
@[simp] theorem State.clearFault_params (s : State) : (s.clearFault).params = s.params := rfl
@[simp] theorem State.clearFault_script (s : State) : (s.clearFault).script = s.script := rfl
@[simp] theorem State.clearFault_result (s : State) : (s.clearFault).result = s.result := rfl
@[simp] theorem State.clearFault_uidCount (s : State) : (s.clearFault).uidCount = s.uidCount := rfl

@[simp] theorem State.withScript_sessionState (s : State) (v : List Move) : (s.withScript v).sessionState = s.sessionState := rfl
@[simp] theorem State.withScript_faultKind (s : State) (v : List Move) : (s.withScript v).faultKind = s.faultKind := rfl
@[simp] theorem State.withScript_line (s : State) (v : List Move) : (s.withScript v).line = s.line := rfl
@[simp] theorem State.withScript_tracker (s : State) (v : List Move) : (s.withScript v).tracker = s.tracker := rfl
@[simp] theorem State.withScript_params (s : State) (v : List Move) : (s.withScript v).params = s.params := rfl
@[simp] theorem State.withScript_script (s : State) (v : List Move) : (s.withScript v).script = v := rfl
@[simp] theorem State.withScript_result (s : State) (v : List Move) : (s.withScript v).result = s.result := rfl
@[simp] theorem State.withScript_uidCount (s : State) (v : List Move) : (s.withScript v).uidCount = s.uidCount := rfl

/-! ### Transport's part -/

@[simp] theorem Line.receive_rxbuf (l : Line) (v : Bytes) : (l.receive v).rxbuf = l.rxbuf ++ v := rfl
@[simp] theorem Line.receive_txlog (l : Line) (v : Bytes) : (l.receive v).txlog = l.txlog := rfl
@[simp] theorem Line.receive_rstLine (l : Line) (v : Bytes) : (l.receive v).rstLine = l.rstLine := rfl
@[simp] theorem Line.receive_rstPulses (l : Line) (v : Bytes) : (l.receive v).rstPulses = l.rstPulses := rfl
@[simp] theorem Line.receive_writeDraws (l : Line) (v : Bytes) : (l.receive v).writeDraws = l.writeDraws := rfl
@[simp] theorem Line.receive_arrivals (l : Line) (v : Bytes) : (l.receive v).arrivals = l.arrivals := rfl
@[simp] theorem Line.receive_freeCount (l : Line) (v : Bytes) : (l.receive v).freeCount = l.freeCount := rfl

@[simp] theorem Line.discard_rxbuf (l : Line) : (l.discard).rxbuf = [] := rfl
@[simp] theorem Line.discard_txlog (l : Line) : (l.discard).txlog = l.txlog := rfl
@[simp] theorem Line.discard_rstLine (l : Line) : (l.discard).rstLine = l.rstLine := rfl
@[simp] theorem Line.discard_rstPulses (l : Line) : (l.discard).rstPulses = l.rstPulses := rfl
@[simp] theorem Line.discard_writeDraws (l : Line) : (l.discard).writeDraws = l.writeDraws := rfl
@[simp] theorem Line.discard_arrivals (l : Line) : (l.discard).arrivals = l.arrivals := rfl
@[simp] theorem Line.discard_freeCount (l : Line) : (l.discard).freeCount = l.freeCount := rfl

@[simp] theorem Line.transmit_rxbuf (l : Line) (v : Bytes) : (l.transmit v).rxbuf = l.rxbuf := rfl
@[simp] theorem Line.transmit_txlog (l : Line) (v : Bytes) : (l.transmit v).txlog = l.txlog ++ v := rfl
@[simp] theorem Line.transmit_rstLine (l : Line) (v : Bytes) : (l.transmit v).rstLine = l.rstLine := rfl
@[simp] theorem Line.transmit_rstPulses (l : Line) (v : Bytes) : (l.transmit v).rstPulses = l.rstPulses := rfl
@[simp] theorem Line.transmit_writeDraws (l : Line) (v : Bytes) : (l.transmit v).writeDraws = l.writeDraws := rfl
@[simp] theorem Line.transmit_arrivals (l : Line) (v : Bytes) : (l.transmit v).arrivals = l.arrivals := rfl
@[simp] theorem Line.transmit_freeCount (l : Line) (v : Bytes) : (l.transmit v).freeCount = l.freeCount := rfl

@[simp] theorem Line.consume_rxbuf (l : Line) (v : Nat) : (l.consume v).rxbuf = l.rxbuf.drop v := rfl
@[simp] theorem Line.consume_txlog (l : Line) (v : Nat) : (l.consume v).txlog = l.txlog := rfl
@[simp] theorem Line.consume_rstLine (l : Line) (v : Nat) : (l.consume v).rstLine = l.rstLine := rfl
@[simp] theorem Line.consume_rstPulses (l : Line) (v : Nat) : (l.consume v).rstPulses = l.rstPulses := rfl
@[simp] theorem Line.consume_writeDraws (l : Line) (v : Nat) : (l.consume v).writeDraws = l.writeDraws := rfl
@[simp] theorem Line.consume_arrivals (l : Line) (v : Nat) : (l.consume v).arrivals = l.arrivals := rfl
@[simp] theorem Line.consume_freeCount (l : Line) (v : Nat) : (l.consume v).freeCount = l.freeCount := rfl

@[simp] theorem Line.drive_rxbuf (l : Line) (v : Level) : (l.drive v).rxbuf = l.rxbuf := rfl
@[simp] theorem Line.drive_txlog (l : Line) (v : Level) : (l.drive v).txlog = l.txlog := rfl
@[simp] theorem Line.drive_rstLine (l : Line) (v : Level) : (l.drive v).rstLine = v := rfl
@[simp] theorem Line.drive_rstPulses (l : Line) (v : Level) : (l.drive v).rstPulses = l.rstPulses := rfl
@[simp] theorem Line.drive_writeDraws (l : Line) (v : Level) : (l.drive v).writeDraws = l.writeDraws := rfl
@[simp] theorem Line.drive_arrivals (l : Line) (v : Level) : (l.drive v).arrivals = l.arrivals := rfl
@[simp] theorem Line.drive_freeCount (l : Line) (v : Level) : (l.drive v).freeCount = l.freeCount := rfl

@[simp] theorem Line.countPulse_rxbuf (l : Line) : (l.countPulse).rxbuf = l.rxbuf := rfl
@[simp] theorem Line.countPulse_txlog (l : Line) : (l.countPulse).txlog = l.txlog := rfl
@[simp] theorem Line.countPulse_rstLine (l : Line) : (l.countPulse).rstLine = l.rstLine := rfl
@[simp] theorem Line.countPulse_rstPulses (l : Line) : (l.countPulse).rstPulses = l.rstPulses + 1 := rfl
@[simp] theorem Line.countPulse_writeDraws (l : Line) : (l.countPulse).writeDraws = l.writeDraws := rfl
@[simp] theorem Line.countPulse_arrivals (l : Line) : (l.countPulse).arrivals = l.arrivals := rfl
@[simp] theorem Line.countPulse_freeCount (l : Line) : (l.countPulse).freeCount = l.freeCount := rfl

end Sys2Proof.Machine
end

