-- ==== Sys2Proof/Laws/Transport.lean ====
section
/-! SUPPORT. What the draws and the four Transport primitives can do (41_transport R110, R113, R116, R119), said once. -/

namespace Sys2Proof.Machine

/-! ### Draws -/

theorem Line.drawWrite_scripted {l : Line} {d : WriteDraw} {ds : List WriteDraw} (h : l.writeDraws = d :: ds) :
    l.drawWrite = (d, { l with writeDraws := ds }) := by
  unfold Line.drawWrite; rw [h]

theorem Line.drawArrival_scripted {l : Line} {bs : Bytes} {rest : List Bytes} (h : l.arrivals = bs :: rest) :
    l.drawArrival = (bs, { l with arrivals := rest }) := by
  unfold Line.drawArrival; rw [h]

@[simp] theorem Line.drawWrite_rxbuf (l : Line) : l.drawWrite.2.rxbuf = l.rxbuf := by
  unfold Line.drawWrite; split <;> rfl
@[simp] theorem Line.drawWrite_txlog (l : Line) : l.drawWrite.2.txlog = l.txlog := by
  unfold Line.drawWrite; split <;> rfl
@[simp] theorem Line.drawWrite_rstLine (l : Line) : l.drawWrite.2.rstLine = l.rstLine := by
  unfold Line.drawWrite; split <;> rfl
@[simp] theorem Line.drawWrite_rstPulses (l : Line) : l.drawWrite.2.rstPulses = l.rstPulses := by
  unfold Line.drawWrite; split <;> rfl
@[simp] theorem Line.drawWrite_arrivals (l : Line) : l.drawWrite.2.arrivals = l.arrivals := by
  unfold Line.drawWrite; split <;> rfl
@[simp] theorem Line.drawArrival_rxbuf (l : Line) : l.drawArrival.2.rxbuf = l.rxbuf := by
  unfold Line.drawArrival; split <;> rfl
@[simp] theorem Line.drawArrival_txlog (l : Line) : l.drawArrival.2.txlog = l.txlog := by
  unfold Line.drawArrival; split <;> rfl
@[simp] theorem Line.drawArrival_rstLine (l : Line) : l.drawArrival.2.rstLine = l.rstLine := by
  unfold Line.drawArrival; split <;> rfl
@[simp] theorem Line.drawArrival_rstPulses (l : Line) : l.drawArrival.2.rstPulses = l.rstPulses := by
  unfold Line.drawArrival; split <;> rfl
@[simp] theorem Line.drawArrival_writeDraws (l : Line) : l.drawArrival.2.writeDraws = l.writeDraws := by
  unfold Line.drawArrival; split <;> rfl

/-! ### What a primitive may have done to Transport's part -/

/-- Bytes were appended to `txlog`, the reset line was left alone: all that a primitive other than `reset_sequence`, or
any number of them, can do to what is sent and to the line. -/
structure Line.Extends (l l' : Line) : Prop where
  txlog : ∃ sent, l'.txlog = l.txlog ++ sent
  rstLine : l'.rstLine = l.rstLine
  rstPulses : l'.rstPulses = l.rstPulses

theorem Line.Extends.refl (l : Line) : l.Extends l := ⟨⟨[], by simp⟩, rfl, rfl⟩

theorem Line.Extends.trans {a b c : Line} (h : a.Extends b) (k : b.Extends c) : a.Extends c := by
  obtain ⟨⟨x, hx⟩, h2, h3⟩ := h
  obtain ⟨⟨y, hy⟩, k2, k3⟩ := k
  exact ⟨⟨x ++ y, by rw [hy, hx, List.append_assoc]⟩, k2.trans h2, k3.trans h3⟩

/-! ### CLEAR_AND_WRITE (R110) -/

theorem clearAndWrite_scripted {l : Line} {d : WriteDraw} {ds : List WriteDraw} (out : Bytes)
    (h : l.writeDraws = d :: ds) :
    clearAndWrite out l =
      (if d.ok then .writeOk else .writeFailed,
        { l with rxbuf := d.arrived, txlog := l.txlog ++ (if d.ok then out else out.take d.sent), writeDraws := ds }) := by
  have h' : l.discard.writeDraws = d :: ds := h
  unfold clearAndWrite
  rw [Line.drawWrite_scripted h']
  cases hd : d.ok <;> simp [hd, Line.transmit, Line.receive, Line.discard]

/-- Everything `clear_and_write` can do, for the draw `d` it made. -/
theorem clearAndWrite_spec (out : Bytes) (l : Line) :
    ∃ d : WriteDraw, d = l.discard.drawWrite.1 ∧
      (clearAndWrite out l).1 = (if d.ok then .writeOk else .writeFailed) ∧
      (clearAndWrite out l).2.rxbuf = d.arrived ∧
      (clearAndWrite out l).2.txlog = l.txlog ++ (if d.ok then out else out.take d.sent) ∧
      (clearAndWrite out l).2.rstLine = l.rstLine ∧ (clearAndWrite out l).2.rstPulses = l.rstPulses ∧
      (clearAndWrite out l).2.arrivals = l.arrivals := by
  refine ⟨_, rfl, ?_⟩
  unfold clearAndWrite
  cases h : l.discard.drawWrite.1.ok <;> simp [h]

theorem clearAndWrite_extends (out : Bytes) (l : Line) : l.Extends (clearAndWrite out l).2 := by
  obtain ⟨d, -, -, -, h, h2, h3, -⟩ := clearAndWrite_spec out l
  exact ⟨⟨_, h⟩, h2, h3⟩

/-! ### READ_EXACT_AVAILABLE (R113) -/

theorem readExactAvailable_scripted {l : Line} {bs : Bytes} {rest : List Bytes} (maxCount : Nat)
    (h : l.arrivals = bs :: rest) :
    readExactAvailable maxCount l =
      ((l.rxbuf ++ bs).take maxCount, { l with rxbuf := (l.rxbuf ++ bs).drop maxCount, arrivals := rest }) := by
  unfold readExactAvailable
  rw [Line.drawArrival_scripted h]
  rfl

/-- Everything `read_exact_available` can do: the bytes returned come before the bytes left, in arrival order. -/
theorem readExactAvailable_spec (maxCount : Nat) (l : Line) :
    ∃ bs : Bytes, bs = l.drawArrival.1 ∧
      (readExactAvailable maxCount l).1 = (l.rxbuf ++ bs).take maxCount ∧
      (readExactAvailable maxCount l).2.rxbuf = (l.rxbuf ++ bs).drop maxCount ∧
      (readExactAvailable maxCount l).2.txlog = l.txlog ∧ (readExactAvailable maxCount l).2.rstLine = l.rstLine ∧
      (readExactAvailable maxCount l).2.rstPulses = l.rstPulses ∧
      (readExactAvailable maxCount l).2.writeDraws = l.writeDraws := by
  refine ⟨_, rfl, ?_⟩
  simp [readExactAvailable]

theorem readExactAvailable_extends (maxCount : Nat) (l : Line) : l.Extends (readExactAvailable maxCount l).2 := by
  obtain ⟨bs, -, -, -, h, h2, h3, -⟩ := readExactAvailable_spec maxCount l
  exact ⟨⟨[], by rw [h, List.append_nil]⟩, h2, h3⟩

/-! ### WAIT_FOR_DATA (R116) -/

theorem waitForData_scripted {l : Line} {bs : Bytes} {rest : List Bytes} (timeout : Nat) (h : l.arrivals = bs :: rest) :
    waitForData timeout l =
      (decide (0 < (l.rxbuf ++ bs).length), { l with rxbuf := l.rxbuf ++ bs, arrivals := rest }) := by
  unfold waitForData
  rw [Line.drawArrival_scripted h]
  rfl

/-- Everything `wait_for_data` can do: it consumes nothing. -/
theorem waitForData_spec (timeout : Nat) (l : Line) :
    ∃ bs : Bytes, bs = l.drawArrival.1 ∧
      (waitForData timeout l).1 = decide (0 < (l.rxbuf ++ bs).length) ∧
      (waitForData timeout l).2.rxbuf = l.rxbuf ++ bs ∧
      (waitForData timeout l).2.txlog = l.txlog ∧ (waitForData timeout l).2.rstLine = l.rstLine ∧
      (waitForData timeout l).2.rstPulses = l.rstPulses ∧ (waitForData timeout l).2.writeDraws = l.writeDraws := by
  refine ⟨_, rfl, ?_⟩
  simp [waitForData]

theorem waitForData_extends (timeout : Nat) (l : Line) : l.Extends (waitForData timeout l).2 := by
  obtain ⟨bs, -, -, -, h, h2, h3, -⟩ := waitForData_spec timeout l
  exact ⟨⟨[], by rw [h, List.append_nil]⟩, h2, h3⟩

/-- The answer does not depend on the duration (70_reset_and_hazards R236). -/
theorem waitForData_timeout (t t' : Nat) (l : Line) : waitForData t l = waitForData t' l := rfl

/-! ### RESET_SEQUENCE (R119) -/

theorem resetSequence_eq (l : Line) : resetSequence l = { l with rstLine := .high, rstPulses := l.rstPulses + 1 } := rfl

end Sys2Proof.Machine
end

