-- ==== Sys2Proof/Laws/Session.lean ====
section
/-! SUPPORT. What an exchange, a wake-up, an initialization, a call and a tracker step can do (42_session, 43_tracker),
said once; and from that, what any instruction and any step can do. -/

namespace Sys2Proof.Machine

/-! ### Exchange -/

theorem awaitResponse_extends (op : Byte) (n t : Nat) (l : Line) : l.Extends (awaitResponse op n t l).2 := by
  have hw := waitForData_extends t l
  have hr := hw.trans (readExactAvailable_extends (n + 9) (waitForData t l).2)
  unfold awaitResponse
  simp only
  split
  · exact hw
  · split
    · exact hr
    · split <;> exact hr

theorem awaitAck_extends (op : Byte) (n t : Nat) (l : Line) : l.Extends (awaitAck op n t l).2 := by
  have hw := waitForData_extends t l
  have hr := hw.trans (readExactAvailable_extends 6 (waitForData t l).2)
  unfold awaitAck
  simp only
  split
  · exact hw
  · split
    · exact hr
    · split
      · exact hr
      · exact hr.trans (awaitResponse_extends op n t _)

theorem exchange_extends (op : Byte) (ps : Bytes) (n t : Nat) (l : Line) : l.Extends (exchange op ps n t l).2 := by
  unfold exchange
  split
  · exact Line.Extends.refl l
  · rename_i f _
    have hw := clearAndWrite_extends f l
    simp only
    split
    · exact hw
    · exact hw.trans (awaitAck_extends op n t _)

/-- Every violation an exchange reports is of class ProtocolViolation (60_exceptions R193). -/
theorem awaitResponse_kind {op : Byte} {n t : Nat} {l : Line} {k : ErrorKind}
    (h : (awaitResponse op n t l).1 = .violation k) : k.errorClass = .protocolViolation := by
  unfold awaitResponse at h
  simp only at h
  split at h
  · cases h
  · split at h
    · cases h
    · split at h
      · rename_i k' hk
        cases h
        rcases decodeResponse_kind hk with h | h | h | h | h <;> subst h <;> rfl
      · cases h

theorem exchange_kind {op : Byte} {ps : Bytes} {n t : Nat} {l : Line} {k : ErrorKind}
    (h : (exchange op ps n t l).1 = .violation k) : k.errorClass = .protocolViolation := by
  unfold exchange at h
  split at h
  · cases h
  · simp only at h
    split at h
    · cases h
    · unfold awaitAck at h
      simp only at h
      split at h
      · cases h
      · split at h
        · cases h
        · split at h
          · cases h; rfl
          · exact awaitResponse_kind h

/-- An exchange with at most 252 parameters is never a bad request (R195). -/
theorem exchange_ne_badRequest {op : Byte} {ps : Bytes} {n t : Nat} {l : Line} (hp : ps.length ≤ 252) (k : ErrorKind) :
    (exchange op ps n t l).1 ≠ .badRequest k := by
  unfold exchange
  rw [encodeCommand_ok op hp]
  simp only
  split
  · simp
  · unfold awaitAck
    simp only
    split
    · simp
    · split
      · simp
      · split
        · simp
        · unfold awaitResponse
          simp only
          split
          · simp
          · split
            · simp
            · split <;> simp

/-! ### Wake-up and attempts -/

theorem samConfiguration_extends (p : Params) (l : Line) : l.Extends (samConfiguration p l) :=
  exchange_extends _ _ _ _ _

theorem wakeup_extends (p : Params) (l : Line) : l.Extends (wakeup p l) :=
  (clearAndWrite_extends _ l).trans (samConfiguration_extends p _)

theorem attempts_extends (p : Params) (k : Nat) (l : Line) : l.Extends (attempts p k l).2 := by
  induction k generalizing l with
  | zero => exact Line.Extends.refl l
  | succ k ih =>
    have hr := (wakeup_extends p l).trans (exchange_extends opFirmware [] fwResultLen p.cmdTimeout (wakeup p l))
    unfold attempts
    simp only
    split
    · exact hr
    · exact hr.trans (ih _)

/-! ### INITIALIZE -/

/-- Everything `INITIALIZE` can do (R130). -/
theorem runInitialize_spec (s : State) :
    ((s.sessionState = .awaitingWakeup ∨ s.sessionState = .busy) ∧ runInitialize s = (.refused, s)) ∨
    (¬ (s.sessionState = .awaitingWakeup ∨ s.sessionState = .busy) ∧
      ∃ l, (resetSequence s.line).Extends l ∧
        ((∃ v, runInitialize s = (.initOk v, { s with sessionState := .ready, faultKind := none, line := l })) ∨
          runInitialize s =
            (.initFailed, { s with sessionState := .faulted, faultKind := some .initFailed, line := l }))) := by
  by_cases h : s.sessionState = .awaitingWakeup ∨ s.sessionState = .busy
  · exact .inl ⟨h, by simp [runInitialize, h]⟩
  · refine .inr ⟨h, _, attempts_extends s.params (1 + wakeupRetries) (resetSequence s.line), ?_⟩
    have e : runInitialize s =
        finishInit (attempts s.params (1 + wakeupRetries) (resetSequence s.line)).1
          (((s.clearFault.setLine (resetSequence s.line)).setSession .awaitingWakeup).setLine
            (attempts s.params (1 + wakeupRetries) (resetSequence s.line)).2) := by
      simp [runInitialize, h]
    rw [e]
    cases (attempts s.params (1 + wakeupRetries) (resetSequence s.line)).1 with
    | none => exact .inr rfl
    | some v => exact .inl ⟨v, rfl⟩

/-! ### CALL -/

/-- A call outside `Ready` does nothing (R145, R200). -/
theorem runCall_refused {s : State} (h : s.sessionState ≠ .ready) (op : Byte) (ps : Bytes) (n t : Nat) :
    runCall op ps n t s = (.refused, s) := by
  simp [runCall, h]

/-- A call in `Ready` is its exchange and the policy for the exchange's result (R145). -/
theorem runCall_ready {s : State} (h : s.sessionState = .ready) (op : Byte) (ps : Bytes) (n t : Nat) :
    runCall op ps n t s =
      match (exchange op ps n t s.line).1 with
      | .payload p => (.ok p, { s with line := (exchange op ps n t s.line).2 })
      | .noResponse => (.noResponse, { s with line := (exchange op ps n t s.line).2 })
      | .writeFailed => (.noResponse, { s with line := wakeup s.params (exchange op ps n t s.line).2 })
      | .violation k => (.protocolViolation k,
          { s with line := (exchange op ps n t s.line).2, sessionState := .faulted, faultKind := some k })
      | .badRequest k => (.badRequest k, { s with line := (exchange op ps n t s.line).2 }) := by
  obtain ⟨ss, fk, ln, tr, pa, sc, re⟩ := s
  subst h
  simp only [runCall, ne_eq, not_true_eq_false, if_false]
  cases (exchange op ps n t ln).1 <;> rfl

/-- Everything a call can do to the state (R145, R197). -/
theorem runCall_spec (op : Byte) (ps : Bytes) (n t : Nat) (s : State) :
    ((runCall op ps n t s).2 = s ∧ s.sessionState ≠ .ready ∧ (runCall op ps n t s).1 = .refused) ∨
    (s.sessionState = .ready ∧ ∃ l, s.line.Extends l ∧
      ((runCall op ps n t s).2 = { s with line := l } ∨
        ∃ k, k.errorClass = .protocolViolation ∧ (runCall op ps n t s).1 = .protocolViolation k ∧
          (runCall op ps n t s).2 = { s with line := l, sessionState := .faulted, faultKind := some k })) := by
  by_cases h : s.sessionState = .ready
  · refine .inr ⟨h, ?_⟩
    have he := exchange_extends op ps n t s.line
    rw [runCall_ready h]
    cases hx : (exchange op ps n t s.line).1 with
    | payload p => exact ⟨_, he, .inl rfl⟩
    | noResponse => exact ⟨_, he, .inl rfl⟩
    | writeFailed => exact ⟨_, he.trans (wakeup_extends _ _), .inl rfl⟩
    | violation k => exact ⟨_, he, .inr ⟨k, exchange_kind hx, rfl, rfl⟩⟩
    | badRequest k => exact ⟨_, he, .inl rfl⟩
  · rw [runCall_refused h]
    exact .inl ⟨rfl, h, rfl⟩

theorem runGetFirmware_state (s : State) :
    (runGetFirmware s).2 = (runCall opFirmware [] fwResultLen s.params.cmdTimeout s).2 := rfl

theorem runReadTarget_state (s : State) :
    (runReadTarget s).2 =
      (runCall opListTarget (listTargetParams s.params.baudRateCode) targetResultLen s.params.shortTimeout s).2 := rfl

/-- What a call leaves alone. -/
theorem runCall_frame (op : Byte) (ps : Bytes) (n t : Nat) (s : State) :
    (runCall op ps n t s).2.tracker = s.tracker ∧ (runCall op ps n t s).2.params = s.params ∧
      (runCall op ps n t s).2.script = s.script ∧ s.line.Extends (runCall op ps n t s).2.line := by
  rcases runCall_spec op ps n t s with ⟨h, -, -⟩ | ⟨-, l, hl, h | ⟨k, -, -, h⟩⟩ <;> rw [h]
  · exact ⟨rfl, rfl, rfl, Line.Extends.refl _⟩
  · exact ⟨rfl, rfl, rfl, hl⟩
  · exact ⟨rfl, rfl, rfl, hl⟩

/-- `BadRequest` cannot come out of a call with at most 252 parameters (R150, R155). -/
theorem runCall_ne_badRequest {op : Byte} {ps : Bytes} {n t : Nat} {s : State} (hp : ps.length ≤ 252) (k : ErrorKind) :
    (runCall op ps n t s).1 ≠ .badRequest k := by
  by_cases h : s.sessionState = .ready
  · rw [runCall_ready h]
    cases hx : (exchange op ps n t s.line).1 with
    | badRequest k' => exact absurd hx (exchange_ne_badRequest hp k')
    | _ => simp
  · rw [runCall_refused h]; simp

/-! ### The tracker -/

/-- A UID that `READ_TARGET` returns is a TagUID (R155, R20). -/
theorem uidOf_isTagUid {offset : Nat} {p u : Bytes} (h : uidOf offset p = some u) : isTagUid u = true := by
  unfold uidOf at h
  split at h
  · cases h
  · split at h
    · cases h
    · simp only at h
      split at h
      · cases h
      · rename_i h1 h2 h3
        split at h
        · rename_i h4
          cases h
          have hlen : ((p.drop (offset + 1)).take (p.getD offset 0#8).toNat).length = (p.getD offset 0#8).toNat := by
            rw [List.length_take, List.length_drop]
            omega
          simp only [isTagUid, hlen, Bool.or_eq_true, beq_iff_eq]
          omega
        · cases h

theorem runReadTarget_isRaw (s : State) : isRawResult (runReadTarget s).1.1 = true := by
  have e : (runReadTarget s).1 = targetOf s.params.uidLenOffset
      (runCall opListTarget (listTargetParams s.params.baudRateCode) targetResultLen s.params.shortTimeout s).1 := rfl
  rw [e]
  cases (runCall opListTarget (listTargetParams s.params.baudRateCode) targetResultLen s.params.shortTimeout s).1 with
  | ok p =>
    cases hu : uidOf s.params.uidLenOffset p with
    | none => simp [targetOf, hu, isRawResult]
    | some u => simpa [targetOf, hu, isRawResult] using uidOf_isTagUid hu
  | _ => rfl

/-- After a tracker step the UID present, if any, is the one read or the one there before (R170). -/
theorem trackerStep_presence {th : Nat} {raw : Option Bytes} {t : Tracker} {u : Bytes}
    (h : (trackerStep th raw t).2.presence = .present u) : raw = some u ∨ t.presence = .present u := by
  obtain ⟨pr, m⟩ := t
  cases raw with
  | some v =>
    cases pr with
    | absent => exact .inl (by simpa [trackerStep, trackerHit] using h)
    | present w =>
      by_cases hv : v = w
      · exact .inr (by simpa [trackerStep, trackerHit, hv] using h)
      · exact .inl (by simpa [trackerStep, trackerHit, hv] using h)
  | none =>
    cases pr with
    | absent => simp [trackerStep, trackerMiss] at h
    | present w =>
      by_cases hm : m + 1 ≥ th
      · simp [trackerStep, trackerMiss, hm] at h
      · exact .inr (by simpa [trackerStep, trackerMiss, hm] using h)

/-- The bytes of a TagUID are one (10_state R20). -/
theorem isTagUid_bytes (u : TagUid) : isTagUid u.bytes = true := by cases u <;> simp [isTagUid, TagUid.bytes]

/-- A raw poll result is what the step works on, and nothing is drawn. -/
@[simp] theorem State.drawRaw_raw {s : State} {raw : Option Bytes} (h : isRawResult raw = true) :
    s.drawRaw raw = (raw, s) := if_pos h

/-- For any other operand some TagUID is, and only the counter of the draws moves on (log entry 22). -/
theorem State.drawRaw_other {s : State} {u : Bytes} (h : isTagUid u = false) :
    ∃ v, isTagUid v = true ∧ s.drawRaw (some u) = (some v, { s with uidCount := s.uidCount + 1 }) :=
  ⟨_, isTagUid_bytes _, if_neg (by simp [isRawResult, h])⟩

/-- What a tracker step works on is always a raw poll result. -/
theorem State.drawRaw_isRaw (s : State) (raw : Option Bytes) : isRawResult (s.drawRaw raw).1 = true := by
  unfold State.drawRaw
  split
  · assumption
  · exact isTagUid_bytes _

/-- Drawing touches nothing but its counter. -/
theorem State.drawRaw_frame (s : State) (raw : Option Bytes) :
    ∃ k, (s.drawRaw raw).2 = { s with uidCount := k } := by
  unfold State.drawRaw
  split <;> exact ⟨_, rfl⟩

/-- A tracker step keeps the bound of the miss counter (10_state R21). -/
theorem trackerStep_bounded {th : Nat} {t : Tracker} (hth : 1 ≤ th) (h : t.Bounded th) (raw : Option Bytes) :
    (trackerStep th raw t).2.Bounded th := by
  obtain ⟨pr, m⟩ := t
  cases raw with
  | some v =>
    cases pr with
    | absent => exact ⟨Nat.zero_le _, fun _ => hth⟩
    | present w => by_cases hv : v = w <;> simp only [trackerStep, trackerHit, hv, if_true, if_false] <;>
        exact ⟨Nat.zero_le _, fun _ => hth⟩
  | none =>
    cases pr with
    | absent => exact h
    | present w =>
      have hm : m < th := h.lt (by simp)
      by_cases hr : m + 1 ≥ th
      · simp only [trackerStep, trackerMiss, if_pos hr]
        exact ⟨hm, fun hp => absurd rfl hp⟩
      · simp only [trackerStep, trackerMiss, if_neg hr]
        exact ⟨by show m + 1 ≤ th; omega, fun _ => by show m + 1 < th; omega⟩

/-! ### Instructions and steps -/

/-- What an instruction can do to Transport's part: it runs one reset sequence (and nothing else of that kind), or leaves
the reset line alone; either way `txlog` only grows. -/
theorem exec_line (i : Instr) (s t : State) (h : exec i s = .next t) :
    (i = .resetSequence ∧ t.line = resetSequence s.line) ∨
    (i = .initSession ∧ (s.sessionState ≠ .busy ∧ s.sessionState ≠ .awaitingWakeup) ∧ (resetSequence s.line).Extends t.line) ∨
    (i ≠ .resetSequence ∧ ¬ (i = .initSession ∧ s.sessionState ≠ .busy ∧ s.sessionState ≠ .awaitingWakeup) ∧ s.line.Extends t.line) := by
  have hcall := fun op ps n t => (runCall_frame op ps n t s).2.2.2
  cases i <;> simp only [exec] at h
  case resetSequence => cases h; exact .inl ⟨rfl, rfl⟩
  case initSession =>
    rcases runInitialize_spec s with ⟨hs, h'⟩ | ⟨hs, l, hl, ⟨v, h'⟩ | h'⟩ <;> simp only [execInitialize, h'] at h <;> cases h
    · exact .inr (.inr ⟨by simp, fun h => hs.elim h.2.2 h.2.1, Line.Extends.refl _⟩)
    · exact .inr (.inl ⟨rfl, ⟨fun h => hs (.inr h), fun h => hs (.inl h)⟩, hl⟩)
    · exact .inr (.inl ⟨rfl, ⟨fun h => hs (.inr h), fun h => hs (.inl h)⟩, hl⟩)
  all_goals cases h; refine .inr (.inr ⟨by simp, by simp, ?_⟩)
  case call => exact hcall _ _ _ _
  case getFirmwareVersion => exact hcall _ _ _ _
  case readTarget => exact hcall _ _ _ _
  case poll => exact hcall _ _ _ _
  case exchange => exact exchange_extends _ _ _ _ _
  case wakeup => exact wakeup_extends _ _
  case samConfiguration => exact samConfiguration_extends _ _
  case readExactAvailable => exact readExactAvailable_extends _ _
  case waitForData => rename_i tmo; exact waitForData_extends tmo _
  case frameAck => exact ⟨⟨[], by simp [arriveOnWire, State.arrive]⟩, rfl, rfl⟩
  case frameResponse => exact ⟨⟨[], by simp [arriveOnWire, State.arrive]⟩, rfl, rfl⟩
  case encodeCommand => exact Line.Extends.refl _
  case decodeAck => exact Line.Extends.refl _
  case decodeResponse => exact Line.Extends.refl _
  case trackerStep raw =>
    obtain ⟨k, hk⟩ := s.drawRaw_frame raw
    simp only [hk]; exact Line.Extends.refl _
  case formatUid => exact Line.Extends.refl _
  all_goals exact clearAndWrite_extends _ _



/-- What a step can be: idle, an instruction, code that is none, bytes arriving, or new parameters. -/
theorem step_cases {s t : State} (h : step s = .next t) :
    (s.script = [] ∧ t = s) ∨
    (∃ c rest i, s.script = .present c :: rest ∧ decode c = .ok i ∧ exec i (s.withScript rest) = .next t) ∨
    (∃ c rest sel, s.script = .present c :: rest ∧ decode c = .error (.unknownOpSel sel) ∧
      t = (s.withScript rest).deliver .refused) ∨
    (∃ bs rest, s.script = .arrive bs :: rest ∧ t = (s.withScript rest).arrive bs) ∨
    (∃ p rest, s.script = .configure p :: rest ∧ p.Valid ∧ t = { s.withScript rest with params := p }) := by
  unfold step at h
  split at h
  · rename_i hs; cases h; exact .inl ⟨hs, rfl⟩
  · rename_i c rest hs
    split at h
    · rename_i i hd; exact .inr (.inl ⟨c, rest, i, hs, hd, h⟩)
    · rename_i e hd
      cases e with
      | unknownOpSel sel => cases h; exact .inr (.inr (.inl ⟨c, rest, sel, hs, hd, rfl⟩))
      | notAWirePattern => cases h
  · rename_i bs rest hs; cases h; exact .inr (.inr (.inr (.inl ⟨bs, rest, hs, rfl⟩)))
  · rename_i p rest hs
    unfold State.configure at h
    split at h
    · rename_i hv; cases h; exact .inr (.inr (.inr (.inr ⟨p, rest, hs, hv, rfl⟩)))
    · cases h

end Sys2Proof.Machine
end

