-- ==== Sys2Proof/Laws/Script.lean ====
section
/-! SUPPORT. What an exchange does under a script of the environment (42_session R140; the notation of 95_test_vectors). -/

namespace Sys2Proof.Machine

/-- Steps 5 to 7 of R140 under a script. -/
theorem awaitResponse_scripted (op : Byte) (n t : Nat) {l : Line} {a3 a4 : Bytes} {rest : List Bytes}
    (h : l.arrivals = a3 :: a4 :: rest) :
    awaitResponse op n t l =
      if l.rxbuf ++ a3 = [] then (.noResponse, { l with rxbuf := [], arrivals := a4 :: rest })
      else
        ((match decodeResponse ((l.rxbuf ++ a3 ++ a4).take (n + 9)) op with
          | .error k => .violation k
          | .ok p => .payload p),
          { l with rxbuf := (l.rxbuf ++ a3 ++ a4).drop (n + 9), arrivals := rest }) := by
  unfold awaitResponse
  rw [waitForData_scripted t h]
  by_cases hb : l.rxbuf ++ a3 = []
  · simp [hb]
  · have hp : 0 < (l.rxbuf ++ a3).length := List.length_pos_iff.mpr hb
    have hl : ((l.rxbuf ++ a3 ++ a4).take (n + 9)).length ≠ 0 := by
      rw [List.length_take, List.length_append]; omega
    simp only [decide_eq_true hp, if_neg hb]
    rw [readExactAvailable_scripted (n + 9)
      (rfl : ({ l with rxbuf := l.rxbuf ++ a3, arrivals := a4 :: rest } : Line).arrivals = a4 :: rest)]
    simp only [hl, if_false, Bool.true_eq_false]
    split <;> simp_all

/-- Steps 3 and 4 of R140 under a script. -/
theorem awaitAck_scripted (op : Byte) (n t : Nat) {l : Line} {a1 a2 : Bytes} {rest : List Bytes}
    (h : l.arrivals = a1 :: a2 :: rest) :
    awaitAck op n t l =
      if l.rxbuf ++ a1 = [] then (.noResponse, { l with rxbuf := [], arrivals := a2 :: rest })
      else if (l.rxbuf ++ a1 ++ a2).take 6 ≠ ackBytes then
        (.violation .badAck, { l with rxbuf := (l.rxbuf ++ a1 ++ a2).drop 6, arrivals := rest })
      else awaitResponse op n t { l with rxbuf := (l.rxbuf ++ a1 ++ a2).drop 6, arrivals := rest } := by
  unfold awaitAck
  rw [waitForData_scripted t h]
  by_cases hb : l.rxbuf ++ a1 = []
  · simp [hb]
  · have hp : 0 < (l.rxbuf ++ a1).length := List.length_pos_iff.mpr hb
    have hl : ((l.rxbuf ++ a1 ++ a2).take 6).length ≠ 0 := by
      rw [List.length_take, List.length_append]; omega
    simp only [decide_eq_true hp, if_neg hb]
    rw [readExactAvailable_scripted 6
      (rfl : ({ l with rxbuf := l.rxbuf ++ a1, arrivals := a2 :: rest } : Line).arrivals = _)]
    simp only [hl, if_false, Bool.true_eq_false, decodeAck_false_iff]

/-- An exchange whose write has a scripted draw. -/
theorem exchange_scripted (op : Byte) (ps : Bytes) (n t : Nat) {l : Line} {d : WriteDraw} {ws : List WriteDraw}
    (hp : ps.length ≤ 252) (h : l.writeDraws = d :: ws) :
    exchange op ps n t l =
      if d.ok = false then
        (.writeFailed,
          { l with rxbuf := d.arrived, txlog := l.txlog ++ (commandFrame op ps).take d.sent, writeDraws := ws })
      else
        awaitAck op n t { l with rxbuf := d.arrived, txlog := l.txlog ++ commandFrame op ps, writeDraws := ws } := by
  unfold exchange
  rw [encodeCommand_ok op hp]
  simp only
  rw [clearAndWrite_scripted _ h]
  cases d.ok <;> simp

theorem replyFrame_length (op : Byte) (r : Bytes) : (replyFrame op r).length = r.length + 9 := by
  simp [replyFrame]; omega

/-- An exchange with a device that acknowledges and answers within the read budget. -/
theorem exchange_answered (op : Byte) (ps : Bytes) (n t : Nat) {l : Line} {ws : List WriteDraw} {rest : List Bytes}
    (results : Bytes) (hp : ps.length ≤ 252) (hr : results.length ≤ 253) (hn : results.length ≤ n)
    (hw : l.writeDraws = writeOkDraw :: ws) (ha : l.arrivals = answer (replyFrame op results) ++ rest) :
    exchange op ps n t l =
      (.payload results,
        { l with rxbuf := [], txlog := l.txlog ++ commandFrame op ps, writeDraws := ws, arrivals := rest }) := by
  have hl := replyFrame_length op results
  have hne : replyFrame op results ≠ [] := by intro h; rw [h] at hl; simp at hl
  have ht : (replyFrame op results).take (n + 9) = replyFrame op results := List.take_of_length_le (by omega)
  have hd : (replyFrame op results).drop (n + 9) = [] := List.drop_of_length_le (by omega)
  have hdec : decodeResponse (replyFrame op results) op = .ok results :=
    decodeResponse_responseFrame 2 op results _ (by omega) hr
  rw [exchange_scripted op ps n t hp hw]
  simp only [writeOkDraw, Bool.true_eq_false, if_false]
  generalize hl1 : ({ l with rxbuf := [], txlog := l.txlog ++ commandFrame op ps, writeDraws := ws } : Line) = l1
  have hx1 : l1.rxbuf = [] := by rw [← hl1]
  have ha1 : l1.arrivals = ackBytes :: [] :: replyFrame op results :: [] :: rest := by rw [← hl1]; exact ha
  have hleft : ([] ++ ackBytes ++ [] : Bytes).drop 6 = [] := rfl
  rw [awaitAck_scripted op n t ha1, hx1, if_neg (show ¬ ([] ++ ackBytes : Bytes) = [] by decide),
    if_neg (show ¬ ([] ++ ackBytes ++ [] : Bytes).take 6 ≠ ackBytes by decide), awaitResponse_scripted op n t rfl]
  simp only [hleft]
  simp only [List.nil_append, List.append_nil, if_neg hne, ht, hd, hdec, ← hl1]

/-- An exchange with a device that stays silent. -/
theorem exchange_silent (op : Byte) (ps : Bytes) (n t : Nat) {l : Line} {ws : List WriteDraw} {rest : List Bytes}
    (hp : ps.length ≤ 252) (hw : l.writeDraws = writeOkDraw :: ws) (ha : l.arrivals = [] :: rest) :
    exchange op ps n t l =
      (.noResponse,
        { l with rxbuf := [], txlog := l.txlog ++ commandFrame op ps, writeDraws := ws, arrivals := rest }) := by
  rw [exchange_scripted op ps n t hp hw]
  simp only [writeOkDraw, Bool.true_eq_false, if_false]
  unfold awaitAck
  rw [waitForData_scripted t
    (show ({ l with rxbuf := [], txlog := l.txlog ++ commandFrame op ps, writeDraws := ws } : Line).arrivals =
      [] :: rest from ha)]
  simp

/-! ### Wake-up and attempts under a script -/

/-- A wake-up that a device answers (R135). -/
theorem wakeup_answered (p : Params) {l : Line} {ws : List WriteDraw} {rest : List Bytes}
    (hw : l.writeDraws = writeOkDraw :: writeOkDraw :: ws)
    (ha : l.arrivals = answer (replyFrame 0x14#8 []) ++ rest) :
    wakeup p l =
      { l with
        rxbuf := [], txlog := l.txlog ++ wakeBytesOf p ++ commandFrame opSam samParams, writeDraws := ws,
        arrivals := rest } := by
  unfold wakeup samConfiguration
  rw [clearAndWrite_scripted _ hw]
  exact congrArg Prod.snd (exchange_answered opSam samParams samResultLen p.cmdTimeout
    (l := { l with rxbuf := [], txlog := l.txlog ++ wakeBytesOf p, writeDraws := writeOkDraw :: ws }) [] (by decide)
    (by decide) (by decide) rfl ha)

/-- A wake-up that a device does not answer (R135). -/
theorem wakeup_silent (p : Params) {l : Line} {ws : List WriteDraw} {rest : List Bytes}
    (hw : l.writeDraws = writeOkDraw :: writeOkDraw :: ws) (ha : l.arrivals = [] :: rest) :
    wakeup p l =
      { l with
        rxbuf := [], txlog := l.txlog ++ wakeBytesOf p ++ commandFrame opSam samParams, writeDraws := ws,
        arrivals := rest } := by
  unfold wakeup samConfiguration
  rw [clearAndWrite_scripted _ hw]
  exact congrArg Prod.snd (exchange_silent opSam samParams samResultLen p.cmdTimeout
    (l := { l with rxbuf := [], txlog := l.txlog ++ wakeBytesOf p, writeDraws := writeOkDraw :: ws }) (by decide) rfl
    ha)

/-- An attempt that a device answers is the last one (R130). -/
theorem attempts_answered (p : Params) (k : Nat) {l : Line} {ws : List WriteDraw} {rest : List Bytes}
    {ic ver rev sup : Byte} (hw : l.writeDraws = writeOkDraw :: writeOkDraw :: writeOkDraw :: ws)
    (ha : l.arrivals = answer (replyFrame 0x14#8 []) ++ (answer (replyFrame 0x02#8 [ic, ver, rev, sup]) ++ rest)) :
    attempts p (k + 1) l =
      (some ⟨ic, ver, rev, sup⟩,
        { l with
          rxbuf := [],
          txlog := l.txlog ++ wakeBytesOf p ++ commandFrame opSam samParams ++ commandFrame opFirmware [],
          writeDraws := ws, arrivals := rest }) := by
  unfold attempts
  rw [wakeup_answered p hw ha]
  simp only
  rw [exchange_answered opFirmware [] fwResultLen p.cmdTimeout [ic, ver, rev, sup] (Nat.zero_le _)
    (by simp) (by simp [fwResultLen]) (ws := ws) (rest := rest) rfl rfl]
  rfl

/-- An attempt that a device does not answer leaves the rest to the next (R130, D20). -/
theorem attempts_silent (p : Params) (k : Nat) {l : Line} {ws : List WriteDraw} {rest : List Bytes}
    (hw : l.writeDraws = writeOkDraw :: writeOkDraw :: writeOkDraw :: ws) (ha : l.arrivals = [] :: [] :: rest) :
    attempts p (k + 1) l =
      attempts p k { l with
        rxbuf := [],
        txlog := l.txlog ++ wakeBytesOf p ++ commandFrame opSam samParams ++ commandFrame opFirmware [],
        writeDraws := ws, arrivals := rest } := by
  conv_lhs => unfold attempts
  rw [wakeup_silent p hw ha]
  simp only
  rw [exchange_silent opFirmware [] fwResultLen p.cmdTimeout (Nat.zero_le _) (ws := ws) (rest := rest) rfl rfl]
  rfl

end Sys2Proof.Machine
end

