-- ==== Sys2Proof/Tests/Slice0.lean ====
section
/-! SUPPORT. Tests on single steps, their expected values from spec 95_test_vectors (the ids V, X, E, U, T, F and P are that
file's) or written out from the layouts of 30_encoding, and for every statement with hypotheses a witness that meets them. -/

open Sys2Proof Sys2Proof.Machine

namespace Sys2Proof.Tests

/-! ### Small states -/

/-- The example values of 95_test_vectors: `WAKE_55_COUNT = 2`, `WAKE_00_COUNT = 3`, `BAUD_RATE_CODE = 00`,
`UID_LEN_OFFSET = 5`, `THRESHOLD = 3`. -/
def exampleParams : Params where
  baudRateCode := 0x00#8
  uidLenOffset := 5
  tenByteUids := true
  threshold := 3
  wake55Count := 2
  wake00Count := 3
  cmdTimeout := 0
  shortTimeout := 0
  waitPollInterval := 0
  readSlice := 0
  pollInterval := 0
  resetLowHoldMs := 0
  resetHighSettleMs := 0
  rxDepth := none

def emptyLine : Line where
  rxbuf := []
  txlog := []
  rstLine := .high
  rstPulses := 0
  writeDraws := []
  arrivals := []
  freeCount := 0

/-- A state with the example parameters, no tag, nothing to come. -/
def stateIn (v : SessionState) (k : Option ErrorKind) : State where
  sessionState := v
  faultKind := k
  line := emptyLine
  tracker := { presence := .absent, missCnt := 0 }
  params := exampleParams
  script := []
  result := none
  uidCount := 0

def readyState : State := stateIn .ready none
def freshState : State := stateIn .uninitialized none
def faultedState : State := stateIn .faulted (some .badAck)

/-- The environment script: the draws at writes, and at waits and reads. -/
def env (ws : List WriteDraw) (as : List Bytes) (s : State) : State :=
  { s with line := { s.line with writeDraws := ws, arrivals := as } }

def withRx (bs : Bytes) (s : State) : State := { s with line := { s.line with rxbuf := bs } }

def withTag (p : Presence) (m : Nat) (s : State) : State := { s with tracker := { presence := p, missCnt := m } }

def withNext (m : Move) (s : State) : State := { s with script := [m] }

/-- `W:fail(k)`. -/
def writeFails (k : Nat) : WriteDraw := { ok := false, sent := k, arrived := [] }

/-- The next state. -/
def nextOf : Host.Outcome State Fault Refusal → Option State
  | .next t => some t
  | .fault _ => none
  | .refused _ => none

/-- The result of an instruction. -/
def resultOf (i : Instr) (s : State) : Option OpResult := (nextOf (exec i s)).bind State.result

/-- The result of an instruction, and where it leaves Transport's buffer and log. -/
def lineOf (i : Instr) (s : State) : Option (Option OpResult × Bytes × Bytes) :=
  (nextOf (exec i s)).map fun t => (t.result, t.line.rxbuf, t.line.txlog)

/-- What a test reads of the session. -/
structure Seen where
  result : Option OpResult
  sessionState : SessionState
  faultKind : Option ErrorKind
  txlog : Bytes
  deriving DecidableEq, Repr

/-- The result of an instruction, and where it leaves the session. -/
def sessionOf (i : Instr) (s : State) : Option Seen :=
  (nextOf (exec i s)).map fun t => ⟨t.result, t.sessionState, t.faultKind, t.line.txlog⟩

/-- The result of an instruction, and where it leaves the tracker. -/
def trackerOf (i : Instr) (s : State) : Option (Option OpResult × Presence × Nat) :=
  (nextOf (exec i s)).map fun t => (t.result, t.tracker.presence, t.tracker.missCnt)

/-! ### Byte strings of 95_test_vectors -/

/-- The ACK (R64). -/
def ack : Bytes := [0x00#8, 0x00#8, 0xFF#8, 0x00#8, 0xFF#8, 0x00#8]
/-- V1. -/
def cmd02 : Bytes := [0x00#8, 0x00#8, 0xFF#8, 0x02#8, 0xFE#8, 0xD4#8, 0x02#8, 0x2A#8, 0x00#8]
/-- V2. -/
def cmd14 : Bytes :=
  [0x00#8, 0x00#8, 0xFF#8, 0x05#8, 0xFB#8, 0xD4#8, 0x14#8, 0x01#8, 0x14#8, 0x01#8, 0x02#8, 0x00#8]
/-- V3. -/
def cmd4A : Bytes := [0x00#8, 0x00#8, 0xFF#8, 0x04#8, 0xFC#8, 0xD4#8, 0x4A#8, 0x01#8, 0x00#8, 0xE1#8, 0x00#8]
/-- V40. -/
def fw : Bytes :=
  [0x00#8, 0x00#8, 0xFF#8, 0x06#8, 0xFA#8, 0xD5#8, 0x03#8, 0x32#8, 0x01#8, 0x06#8, 0x07#8, 0xE8#8, 0x00#8]
/-- V41. -/
def sam : Bytes := [0x00#8, 0x00#8, 0xFF#8, 0x02#8, 0xFE#8, 0xD5#8, 0x15#8, 0x16#8, 0x00#8]
/-- V42. -/
def tagA : Bytes :=
  [0x00#8, 0x00#8, 0xFF#8, 0x0C#8, 0xF4#8, 0xD5#8, 0x4B#8, 0x01#8, 0x01#8, 0x00#8, 0x04#8, 0x08#8, 0x04#8, 0xDE#8,
    0xAD#8, 0xBE#8, 0xEF#8, 0x96#8, 0x00#8]
/-- V45. -/
def noTag : Bytes := [0x00#8, 0x00#8, 0xFF#8, 0x03#8, 0xFD#8, 0xD5#8, 0x4B#8, 0x00#8, 0xE0#8, 0x00#8]
/-- `55 55 00 00 00`. -/
def wake : Bytes := [0x55#8, 0x55#8, 0x00#8, 0x00#8, 0x00#8]
/-- UID `A` of section 2.10. -/
def uidA : Bytes := [0xDE#8, 0xAD#8, 0xBE#8, 0xEF#8]
/-- UID `B`. -/
def uidB : Bytes := [0x04#8, 0xA2#8, 0x3B#8, 0x1C#8, 0x5D#8, 0x6E#8, 0x80#8]
/-- UID `A7`. -/
def uidA7 : Bytes := [0xDE#8, 0xAD#8, 0xBE#8, 0xEF#8, 0x00#8, 0x00#8, 0x00#8]

/-! ### Well-formedness: an ill-formed term for each check -/

/-- `max_count` is at least 1 (R113). -/
theorem test_wf_readExactAvailable : Instr.wf (.readExactAvailable 1) = true ∧ Instr.wf (.readExactAvailable 0) = false := by
  decide

/-- A TagUID has 4, 7 or 10 bytes (R20, R169). -/
theorem test_wf_trackerStep : Instr.wf (.trackerStep none) = true ∧ Instr.wf (.trackerStep (some uidA7)) = true ∧
    Instr.wf (.trackerStep (some [0x01#8])) = false ∧ Instr.wf (.trackerStep (some (uidA ++ [0x05#8]))) = false := by
  decide

/-- R178. -/
theorem test_wf_formatUid : Instr.wf (.formatUid uidA) = true ∧ Instr.wf (.formatUid []) = false := by decide

set_option maxRecDepth 8192 in
/-- At most 252 parameters (R62), and not one of the commands with rows of their own (R67 to R69). -/
theorem test_wf_frameCommand : Instr.wf (.frameCommand 0x40#8 (List.replicate 252 0x01#8)) = true ∧
    Instr.wf (.frameCommand 0x40#8 (List.replicate 253 0x01#8)) = false ∧ Instr.wf (.frameCommand 0x02#8 []) = false ∧
    Instr.wf (.frameCommand 0x14#8 [0x01#8, 0x14#8, 0x01#8]) = false ∧
    Instr.wf (.frameCommand 0x4A#8 [0x01#8, 0x77#8]) = false ∧
    Instr.wf (.frameCommand 0x4A#8 [0x02#8, 0x77#8]) = true := by
  decide

set_option maxRecDepth 8192 in
/-- At least one leading zero, and a LEN that fits one byte (R63, V51). -/
theorem test_wf_frameResponse : Instr.wf (.frameResponse 1 0x03#8 (List.replicate 253 0x00#8) []) = true ∧
    Instr.wf (.frameResponse 0 0x03#8 [] []) = false ∧
    Instr.wf (.frameResponse 1 0x03#8 (List.replicate 254 0x00#8) []) = false := by
  decide

/-- Neither run is empty (R65). -/
theorem test_wf_wakeBytes : Instr.wf (.wakeBytes 1 1) = true ∧ Instr.wf (.wakeBytes 0 1) = false ∧
    Instr.wf (.wakeBytes 1 0) = false := by
  decide

/-! ### Decoding, by codes written out from R70 and layouts written out from R62 to R69 -/

/-- A request with every operand lane filled. -/
def req (sel : BitVec 5) : Request :=
  { opSel := sel, opcode := 0x4A#8, bytes := [0x01#8, 0x00#8], count := 19, timeout := 7, raw := some uidA }

theorem test_decode_encodeCommand : decode (.request (req 0b00001#5)) = .ok (.encodeCommand 0x4A#8 [0x01#8, 0x00#8]) := by
  decide
theorem test_decode_decodeAck : decode (.request (req 0b00010#5)) = .ok (.decodeAck [0x01#8, 0x00#8]) := by decide
theorem test_decode_decodeResponse :
    decode (.request (req 0b00011#5)) = .ok (.decodeResponse [0x01#8, 0x00#8] 0x4A#8) := by decide
theorem test_decode_clearAndWrite : decode (.request (req 0b00100#5)) = .ok (.clearAndWrite [0x01#8, 0x00#8]) := by decide
theorem test_decode_readExactAvailable : decode (.request (req 0b00101#5)) = .ok (.readExactAvailable 19) := by decide
theorem test_decode_waitForData : decode (.request (req 0b00110#5)) = .ok (.waitForData 7) := by decide
theorem test_decode_resetSequence : decode (.request (req 0b00111#5)) = .ok .resetSequence := by decide
theorem test_decode_initSession : decode (.request (req 0b01000#5)) = .ok .initSession := by decide
theorem test_decode_wakeup : decode (.request (req 0b01001#5)) = .ok .wakeup := by decide
theorem test_decode_exchange : decode (.request (req 0b01010#5)) = .ok (.exchange 0x4A#8 [0x01#8, 0x00#8] 19 7) := by decide
theorem test_decode_call : decode (.request (req 0b01011#5)) = .ok (.call 0x4A#8 [0x01#8, 0x00#8] 19 7) := by decide
theorem test_decode_getFirmwareVersion : decode (.request (req 0b01100#5)) = .ok .getFirmwareVersion := by decide
theorem test_decode_samConfiguration : decode (.request (req 0b01101#5)) = .ok .samConfiguration := by decide
theorem test_decode_readTarget : decode (.request (req 0b01110#5)) = .ok .readTarget := by decide
theorem test_decode_trackerStep : decode (.request (req 0b10000#5)) = .ok (.trackerStep (some uidA)) := by decide
theorem test_decode_poll : decode (.request (req 0b10001#5)) = .ok .poll := by decide
theorem test_decode_formatUid : decode (.request (req 0b10010#5)) = .ok (.formatUid [0x01#8, 0x00#8]) := by decide
/-- The codes beside the table's are no operation (R70, R72). -/
theorem test_decode_unknown : [0b00000#5, 0b01111#5, 0b10011#5, 0b11111#5].map (fun v => decode (.request (req v))) =
    [.error (.unknownOpSel 0b00000#5), .error (.unknownOpSel 0b01111#5), .error (.unknownOpSel 0b10011#5),
      .error (.unknownOpSel 0b11111#5)] := by
  decide

/-- V6, and V4 with two targets asked for, which is no row of its own. -/
theorem test_decode_frameCommand :
    decodeWire [0x00#8, 0x00#8, 0xFF#8, 0x03#8, 0xFD#8, 0xD4#8, 0xFF#8, 0x2D#8, 0x00#8, 0x00#8] =
      .ok (.frameCommand 0xFF#8 [0x2D#8]) ∧
    decodeWire [0x00#8, 0x00#8, 0xFF#8, 0x04#8, 0xFC#8, 0xD4#8, 0x4A#8, 0x02#8, 0x01#8, 0xDF#8, 0x00#8] =
      .ok (.frameCommand 0x4A#8 [0x02#8, 0x01#8]) := by
  decide
/-- V40 and V46. -/
theorem test_decode_frameResponse :
    decodeWire fw = .ok (.frameResponse 2 0x03#8 [0x32#8, 0x01#8, 0x06#8, 0x07#8] [0x00#8]) ∧
    decodeWire (fw.drop 1) = .ok (.frameResponse 1 0x03#8 [0x32#8, 0x01#8, 0x06#8, 0x07#8] [0x00#8]) := by
  decide
theorem test_decode_frameAck : decodeWire ack = .ok .frameAck := by decide
theorem test_decode_wakeBytes : decodeWire wake = .ok (.wakeBytes 2 3) ∧ decodeWire [0x55#8, 0x00#8] = .ok (.wakeBytes 1 1) := by
  decide
theorem test_decode_cmdGetFirmwareVersion : decodeWire cmd02 = .ok .cmdGetFirmwareVersion := by decide
theorem test_decode_cmdSamConfiguration : decodeWire cmd14 = .ok .cmdSamConfiguration := by decide
theorem test_decode_cmdInListPassiveTarget : decodeWire cmd4A = .ok (.cmdInListPassiveTarget 0x00#8) := by decide
/-- V66, V22 and an empty line: no pattern. -/
theorem test_decode_noPattern : decodeWire [] = .error .notAWirePattern ∧ decodeWire [0x55#8] = .error .notAWirePattern ∧
    decodeWire [0x00#8, 0x00#8, 0xFF#8, 0xFF#8, 0x00#8, 0x00#8] = .error .notAWirePattern ∧
    decodeWire [0x00#8, 0x00#8, 0xFF#8, 0x02#8, 0xFF#8, 0xD4#8, 0x02#8, 0x2A#8, 0x00#8] = .error .notAWirePattern := by
  decide
/-- The table's words: `op_sel` codes, and the one-byte pattern of the preamble. -/
theorem test_decodeTableWord : decodeTableWord 8 0x08 = some .initSession ∧ decodeTableWord 8 0x11 = some .poll ∧
    decodeTableWord 8 0x55 = some (.wakeBytes 1 1) ∧ decodeTableWord 48 0x00FF00FF0000 = some .frameAck ∧
    decodeTableWord 8 0x0F = none := by
  decide

/-! ### FrameCodec -/

/-- V1 to V6. -/
theorem test_encodeCommand_vectors :
    resultOf (.encodeCommand 0x02#8 []) freshState = some (.encoded (.ok cmd02)) ∧
    resultOf (.encodeCommand 0x14#8 [0x01#8, 0x14#8, 0x01#8]) freshState = some (.encoded (.ok cmd14)) ∧
    resultOf (.encodeCommand 0x4A#8 [0x01#8, 0x00#8]) freshState = some (.encoded (.ok cmd4A)) ∧
    resultOf (.encodeCommand 0x00#8 []) freshState =
      some (.encoded (.ok [0x00#8, 0x00#8, 0xFF#8, 0x02#8, 0xFE#8, 0xD4#8, 0x00#8, 0x2C#8, 0x00#8])) ∧
    resultOf (.encodeCommand 0xFF#8 [0x2D#8]) freshState =
      some (.encoded (.ok [0x00#8, 0x00#8, 0xFF#8, 0x03#8, 0xFD#8, 0xD4#8, 0xFF#8, 0x2D#8, 0x00#8, 0x00#8])) := by
  decide

set_option maxRecDepth 8192 in
/-- V7 and V9: 252 bytes `FF` go through, 253 do not. -/
theorem test_encodeCommand_limit :
    encodeCommand 0x40#8 (List.replicate 252 0xFF#8) =
      .ok ([0x00#8, 0x00#8, 0xFF#8, 0xFE#8, 0x02#8, 0xD4#8, 0x40#8] ++ List.replicate 252 0xFF#8 ++ [0xE8#8, 0x00#8]) ∧
    encodeCommand 0x40#8 (List.replicate 253 0xFF#8) = .error .invalidParameterCount := by
  decide

/-- V20 to V27. -/
theorem test_decodeAck_vectors :
    resultOf (.decodeAck ack) freshState = some (.ack true) ∧
    [[0x00#8, 0x00#8, 0xFF#8, 0x00#8, 0xFF#8, 0x01#8], [0x00#8, 0x00#8, 0xFF#8, 0xFF#8, 0x00#8, 0x00#8],
      [0x01#8, 0x00#8, 0xFF#8, 0x00#8, 0xFF#8, 0x00#8], [0x00#8, 0x00#8, 0xFF#8, 0x00#8, 0xFF#8], ack ++ [0x00#8], [],
      [0x00#8, 0xFF#8, 0x00#8, 0xFF#8, 0x00#8, 0x00#8]].map (fun b => resultOf (.decodeAck b) freshState) =
      List.replicate 7 (some (.ack false)) := by
  decide

/-- V40, V41, V46 to V50, V52, and the cancelling change of R100. -/
theorem test_decodeResponse_accepted :
    let four : Option OpResult := some (.decoded (.ok [0x32#8, 0x01#8, 0x06#8, 0x07#8]))
    [fw, fw.drop 1, List.replicate 3 0x00#8 ++ fw, fw.dropLast, fw ++ [0xAA#8, 0xBB#8], fw.dropLast ++ [0x77#8]].map
      (fun b => resultOf (.decodeResponse b 0x02#8) freshState) = List.replicate 6 four ∧
    resultOf (.decodeResponse sam 0x14#8) freshState = some (.decoded (.ok [])) ∧
    resultOf (.decodeResponse [0x00#8, 0x00#8, 0xFF#8, 0x03#8, 0xFD#8, 0xD5#8, 0x00#8, 0x2D#8, 0xFE#8, 0x00#8] 0xFF#8)
      freshState = some (.decoded (.ok [0x2D#8])) ∧
    resultOf (.decodeResponse ((fw.set 7 0x33#8).set 8 0x00#8) 0x02#8) freshState =
      some (.decoded (.ok [0x33#8, 0x00#8, 0x06#8, 0x07#8])) := by
  decide

/-- V60 to V66, V70 to V78, V30 to V33: one input for each check, in check order. -/
theorem test_decodeResponse_rejected :
    [[], fw.drop 2, List.replicate 6 0x00#8, fw.set 2 0xFE#8, [0x00#8, 0xFF#8], [0x00#8, 0xFF#8, 0x06#8], fw.set 4 0xFB#8,
      fw.take 11, fw.take 8, fw.set 11 0xE9#8, [0x00#8, 0x00#8, 0xFF#8, 0x00#8, 0x00#8, 0x05#8, 0x00#8],
      [0x00#8, 0x00#8, 0xFF#8, 0x00#8, 0x00#8, 0x00#8, 0x00#8],
      [0x00#8, 0x00#8, 0xFF#8, 0x01#8, 0xFF#8, 0x7F#8, 0x81#8, 0x00#8], cmd02, noTag, fw.set 6 0x05#8, fw.set 7 0x33#8,
      fw.set 11 0x00#8, fw.set 5 0xD4#8].map (fun b => decodeResponse b 0x02#8) =
      [.error .missingStartCode, .error .missingStartCode, .error .missingStartCode, .error .missingStartCode,
        .error .truncatedFrame, .error .truncatedFrame, .error .lengthChecksumMismatch, .error .truncatedFrame,
        .error .truncatedFrame, .error .dataChecksumMismatch, .error .dataChecksumMismatch, .error .unexpectedResponse,
        .error .unexpectedResponse, .error .unexpectedResponse, .error .unexpectedResponse, .error .dataChecksumMismatch,
        .error .dataChecksumMismatch, .error .dataChecksumMismatch, .error .dataChecksumMismatch] := by
  decide

/-- V12: the reply made of V6. -/
theorem test_asReply :
    asReply [0x00#8, 0x00#8, 0xFF#8, 0x03#8, 0xFD#8, 0xD4#8, 0xFF#8, 0x2D#8, 0x00#8, 0x00#8] =
      [0x00#8, 0x00#8, 0xFF#8, 0x03#8, 0xFD#8, 0xD5#8, 0x00#8, 0x2D#8, 0xFE#8, 0x00#8] := by
  decide

/-! ### Transport -/

/-- X1. -/
theorem test_clearAndWrite_ok :
    lineOf (.clearAndWrite cmd02) (env [writeOkDraw] [] (withRx [0x00#8, 0x00#8, 0xFF#8, 0x00#8, 0xFF#8] readyState)) =
      some (some (.written .writeOk), [], cmd02) := by
  decide

/-- X2. -/
theorem test_clearAndWrite_fails :
    lineOf (.clearAndWrite cmd02) (env [writeFails 4] [] (withRx [0xAA#8] readyState)) =
      some (some (.written .writeFailed), [], [0x00#8, 0x00#8, 0xFF#8, 0x02#8]) := by
  decide

/-- X4, X5, X6. -/
theorem test_waitForData :
    lineOf (.waitForData 7) (env [] [[]] readyState) = some (some (.ready false), [], []) ∧
    lineOf (.waitForData 7) (env [] [[0x00#8]] readyState) = some (some (.ready true), [0x00#8], []) ∧
    lineOf (.waitForData 7) (env [] [[]] (withRx [0x07#8] readyState)) = some (some (.ready true), [0x07#8], []) := by
  decide

/-- X7 and X10. -/
theorem test_readExactAvailable_buffered :
    lineOf (.readExactAvailable 6) (env [] [[]] (withRx (ack ++ [0x00#8, 0x00#8, 0xFF#8, 0x06#8]) readyState)) =
      some (some (.got ack), [0x00#8, 0x00#8, 0xFF#8, 0x06#8], []) ∧
    lineOf (.readExactAvailable 13) (env [] [[]] readyState) = some (some (.got []), [], []) := by
  decide

/-- X8 and X9. -/
theorem test_readExactAvailable_slice :
    lineOf (.readExactAvailable 6) (env [] [[]] (withRx [0x00#8, 0x00#8, 0xFF#8] readyState)) =
      some (some (.got [0x00#8, 0x00#8, 0xFF#8]), [], []) ∧
    lineOf (.readExactAvailable 6)
      (env [] [[0x00#8, 0xFF#8, 0x00#8, 0xD5#8]] (withRx [0x00#8, 0x00#8, 0xFF#8] readyState)) =
      some (some (.got ack), [0xD5#8], []) := by
  decide

/-- X11. -/
theorem test_resetSequence :
    (nextOf (exec .resetSequence (withRx [0x12#8, 0x34#8] freshState))).map
      (fun t => (t.line.rstLine, t.line.rstPulses, t.line.rxbuf)) = some (.high, 1, [0x12#8, 0x34#8]) := by
  decide

/-! ### Session -/

set_option maxRecDepth 8192 in
/-- E12's result at the exchange it makes; E15's exchange leaves the byte outside the budget. -/
theorem test_exchange :
    resultOf (.exchange 0x40#8 (List.replicate 253 0x00#8) 0 7) readyState =
      some (.exchanged (.badRequest .invalidParameterCount)) ∧
    lineOf (.exchange 0x02#8 [] 4 7) (env [writeOkDraw] [ack, [], [0x00#8, 0x00#8, 0xFF#8, 0x07#8, 0xF9#8, 0xD5#8, 0x03#8,
        0x32#8, 0x01#8, 0x06#8, 0x07#8, 0x09#8, 0xDF#8, 0x00#8], []] readyState) =
      some (some (.exchanged (.payload [0x32#8, 0x01#8, 0x06#8, 0x07#8, 0x09#8])), [0x00#8], cmd02) := by
  decide

/-- E1, E3, E4 and E10: the session stays `Ready`. -/
theorem test_call_stays_ready :
    sessionOf (.call 0x02#8 [] 4 7) (env [writeOkDraw] (answer fw) readyState) =
      some ⟨some (.called (.ok [0x32#8, 0x01#8, 0x06#8, 0x07#8])), .ready, none, cmd02⟩ ∧
    sessionOf (.call 0x02#8 [] 4 7) (env [writeOkDraw] silence readyState) =
      some ⟨some (.called .noResponse), .ready, none, cmd02⟩ ∧
    sessionOf (.call 0x02#8 [] 4 7) (env [writeOkDraw] [ack, [], []] readyState) =
      some ⟨some (.called .noResponse), .ready, none, cmd02⟩ ∧
    sessionOf (.call 0x02#8 [] 4 7) (env [writeFails 4, writeOkDraw, writeOkDraw] (answer sam) readyState) =
      some ⟨some (.called .noResponse), .ready, none, [0x00#8, 0x00#8, 0xFF#8, 0x02#8] ++ wake ++ cmd14⟩ := by
  decide

/-- E5, E7, E8 and E9 fault the session; E14 is refused. -/
theorem test_call_faults :
    sessionOf (.call 0x02#8 [] 4 7) (env [writeOkDraw] [[0x00#8, 0x00#8, 0xFF#8], []] readyState) =
      some ⟨some (.called (.protocolViolation .badAck)), .faulted, some .badAck, cmd02⟩ ∧
    sessionOf (.call 0x02#8 [] 4 7) (env [writeOkDraw] (answer (fw.take 8)) readyState) =
      some ⟨some (.called (.protocolViolation .truncatedFrame)), .faulted, some .truncatedFrame, cmd02⟩ ∧
    sessionOf (.call 0x02#8 [] 4 7) (env [writeOkDraw] (answer (fw.set 11 0xE9#8)) readyState) =
      some ⟨some (.called (.protocolViolation .dataChecksumMismatch)), .faulted, some .dataChecksumMismatch, cmd02⟩ ∧
    sessionOf (.call 0x02#8 [] 4 7) (env [writeOkDraw] (answer noTag) readyState) =
      some ⟨some (.called (.protocolViolation .unexpectedResponse)), .faulted, some .unexpectedResponse, cmd02⟩ ∧
    sessionOf (.call 0x02#8 [] 4 7) faultedState = some ⟨some (.called .refused), .faulted, some .badAck, []⟩ := by
  decide

/-- P1: the first attempt unanswered, the second answered with ACK and response in one burst. -/
theorem test_initSession_retry :
    sessionOf .initSession (env (List.replicate 6 writeOkDraw)
        [[], [], ack, [], sam, [], ack ++ fw, [], [], []] (withRx [0xAA#8, 0xBB#8] freshState)) =
      some ⟨some (.initResult (.initOk ⟨0x32#8, 0x01#8, 0x06#8, 0x07#8⟩)), .ready, none,
        wake ++ cmd14 ++ cmd02 ++ wake ++ cmd14 ++ cmd02⟩ := by
  decide

/-- P1b. -/
theorem test_initSession_fails :
    sessionOf .initSession (env (List.replicate 6 writeOkDraw) [[], [], [], []] freshState) =
      some ⟨some (.initResult .initFailed), .faulted, some .initFailed,
        wake ++ cmd14 ++ cmd02 ++ wake ++ cmd14 ++ cmd02⟩ := by
  decide

/-- R135 with P4's script: a failed write of the preamble (two bytes out) is ignored. -/
theorem test_wakeup :
    lineOf .wakeup (env [writeFails 2, writeOkDraw] (answer sam) readyState) =
      some (some .done, [], [0x55#8, 0x55#8] ++ cmd14) := by
  decide

/-- R152: the answer is used up, the outcome discarded, the session untouched. -/
theorem test_samConfiguration :
    sessionOf .samConfiguration (env [writeOkDraw] [[0x00#8], []] readyState) =
      some ⟨some .done, .ready, none, cmd14⟩ := by
  decide

/-- E17 and E18. -/
theorem test_getFirmwareVersion :
    sessionOf .getFirmwareVersion (env [writeOkDraw] (answer fw) readyState) =
      some ⟨some (.firmware (.fwOk ⟨0x32#8, 0x01#8, 0x06#8, 0x07#8⟩)), .ready, none, cmd02⟩ ∧
    sessionOf .getFirmwareVersion (env [writeOkDraw]
        (answer [0x00#8, 0x00#8, 0xFF#8, 0x05#8, 0xFB#8, 0xD5#8, 0x03#8, 0x32#8, 0x01#8, 0x06#8, 0xEF#8, 0x00#8])
        readyState) =
      some ⟨some (.firmware .noResponse), .ready, none, cmd02⟩ := by
  decide

/-- U1 through the wire. -/
theorem test_readTarget :
    sessionOf .readTarget (env [writeOkDraw] (answer tagA) readyState) =
      some ⟨some (.target (some uidA) .statusOk), .ready, none, cmd4A⟩ := by
  decide

/-- U2, U4 to U11. -/
theorem test_readTarget_extraction :
    [[0x01#8, 0x01#8, 0x00#8, 0x44#8, 0x00#8, 0x07#8] ++ uidB, [0x00#8],
      [0x02#8, 0x01#8, 0x00#8, 0x04#8, 0x08#8, 0x04#8] ++ uidA, [], [0x01#8, 0x01#8, 0x00#8, 0x04#8, 0x08#8],
      [0x01#8, 0x01#8, 0x00#8, 0x04#8, 0x08#8, 0x04#8, 0xDE#8, 0xAD#8],
      [0x01#8, 0x01#8, 0x00#8, 0x04#8, 0x08#8, 0x05#8, 0x01#8, 0x02#8, 0x03#8, 0x04#8, 0x05#8],
      [0x01#8, 0x01#8, 0x00#8, 0x04#8, 0x08#8, 0x00#8],
      [0x01#8, 0x01#8, 0x00#8, 0x04#8, 0x08#8, 0x04#8] ++ uidA ++ [0x99#8, 0x99#8]].map (uidOf 5) =
      [some uidB, none, none, none, none, none, none, none, some uidA] := by
  decide

/-! ### Tracker -/

/-- T4, T5, T7, T11: a hit after a hit or misses. -/
theorem test_trackerStep_hit :
    trackerOf (.trackerStep (some uidB)) (withTag (.present uidA) 2 freshState) =
      some (some (.event (some (.tagChanged uidA uidB))), .present uidB, 0) ∧
    trackerOf (.trackerStep (some uidA7)) (withTag (.present uidA) 0 freshState) =
      some (some (.event (some (.tagChanged uidA uidA7))), .present uidA7, 0) ∧
    trackerOf (.trackerStep (some uidA)) (withTag .absent 3 freshState) =
      some (some (.event (some (.tagAppeared uidA))), .present uidA, 0) ∧
    trackerOf (.trackerStep (some uidA)) (withTag (.present uidA) 2 freshState) =
      some (some (.event none), .present uidA, 0) := by
  decide

/-- T1, T9, T6 and the last poll of S6. -/
theorem test_trackerStep_miss :
    trackerOf (.trackerStep none) (withTag (.present uidA) 1 freshState) = some (some (.event none), .present uidA, 2) ∧
    trackerOf (.trackerStep none) (withTag (.present uidA) 2 freshState) =
      some (some (.event (some (.tagRemoved uidA))), .absent, 3) ∧
    trackerOf (.trackerStep none) (withTag .absent 0 freshState) = some (some (.event none), .absent, 0) ∧
    trackerOf (.trackerStep none) (withTag .absent 3 freshState) = some (some (.event none), .absent, 3) := by
  decide

/-- P2, polls 1 and 7. -/
theorem test_poll :
    trackerOf .poll (env [writeOkDraw] (answer tagA) readyState) =
      some (some (.polled (some (.tagAppeared uidA)) .statusOk), .present uidA, 0) ∧
    trackerOf .poll (env [writeOkDraw] silence (withTag (.present uidB) 2 readyState)) =
      some (some (.polled (some (.tagRemoved uidB)) .statusOk), .absent, 3) := by
  decide

/-- P3, request 3: a poll while faulted is a miss. -/
theorem test_poll_faulted :
    trackerOf .poll (withTag (.present uidA) 0 faultedState) =
      some (some (.polled none .statusRefused), .present uidA, 1) := by
  decide

/-- F2 and F4. -/
theorem test_formatUid :
    resultOf (.formatUid uidB) freshState = some (.text ("04:A2:3B:1C:5D:6E:80".toList)) ∧
    resultOf (.formatUid [0x00#8, 0x0A#8, 0xA0#8, 0xFF#8]) freshState = some (.text ("00:0A:A0:FF".toList)) := by
  decide

/-! ### Wire patterns -/

/-- V6's frame goes out; a failed write sends a part. -/
theorem test_frameCommand :
    lineOf (.frameCommand 0xFF#8 [0x2D#8]) (env [writeOkDraw] [] (withRx [0xAA#8] readyState)) =
      some (some (.written .writeOk), [],
        [0x00#8, 0x00#8, 0xFF#8, 0x03#8, 0xFD#8, 0xD4#8, 0xFF#8, 0x2D#8, 0x00#8, 0x00#8]) ∧
    lineOf (.frameCommand 0xFF#8 [0x2D#8]) (env [writeFails 3] [] readyState) =
      some (some (.written .writeFailed), [], [0x00#8, 0x00#8, 0xFF#8]) := by
  decide

/-- V40's frame comes in behind what is there. -/
theorem test_frameResponse :
    lineOf (.frameResponse 2 0x03#8 [0x32#8, 0x01#8, 0x06#8, 0x07#8] [0x00#8]) (withRx ack readyState) =
      some (none, ack ++ fw, []) := by
  decide

theorem test_frameAck : lineOf .frameAck (withRx [0x77#8] readyState) = some (none, [0x77#8] ++ ack, []) := by decide

theorem test_wakeBytes :
    lineOf (.wakeBytes 2 3) (env [writeOkDraw] [] readyState) = some (some (.written .writeOk), [], wake) := by
  decide

theorem test_cmdGetFirmwareVersion :
    lineOf .cmdGetFirmwareVersion (env [writeOkDraw] [] readyState) = some (some (.written .writeOk), [], cmd02) := by
  decide

theorem test_cmdSamConfiguration :
    lineOf .cmdSamConfiguration (env [writeOkDraw] [] readyState) = some (some (.written .writeOk), [], cmd14) := by
  decide

theorem test_cmdInListPassiveTarget :
    lineOf (.cmdInListPassiveTarget 0x00#8) (env [writeOkDraw] [] readyState) =
      some (some (.written .writeOk), [], cmd4A) := by
  decide

/-! ### Steps -/

/-- A sequence of one byte is no TagUID (R169): the step completes, the counter is 0 and a tag is there (R170). -/
theorem test_step_trackerStep_other :
    (nextOf (step (withNext (.present (.request { req 0b10000#5 with raw := some [0x01#8] }))
      (withTag .absent 2 readyState)))).map (fun t => (t.tracker.missCnt, t.tagPresent, t.script)) =
      some (0, true, []) := by
  decide

/-- Bytes of no pattern and excluded parameters are refused by name. -/
theorem test_step_refused :
    step (withNext (.present (.wire [0x55#8])) readyState) = .refused .notAWirePattern ∧
    step (withNext (.configure { exampleParams with threshold := 0 }) readyState) = .refused .invalidParameters :=
  ⟨rfl, rfl⟩

/-- A threshold lowered below the counter leaves the tracker as it is (10_state R21: "It is written only by
`TRACKER_STEP`"; log entry 23), and the next miss removes the tag (43_tracker R170: "increment miss-counter; if
miss-counter ≥ threshold → Absent"). -/
theorem test_step_lowers_threshold :
    let t := nextOf (step (withNext (.configure { exampleParams with threshold := 1 }) (withTag (.present uidA) 2 readyState)))
    (t.map fun t => (t.params.threshold, t.tracker.presence, t.tracker.missCnt)) = some (1, .present uidA, 2) ∧
    t.bind (trackerOf (.trackerStep none)) = some (some (.event (some (.tagRemoved uidA))), .absent, 3) := by
  decide

/-- A word of the table, placed as the next move, is run by the very next step. -/
theorem test_step_runs_word :
    (nextOf (step (State.withFetchWord (withTag (.present uidA) 0 faultedState) 8 0x11))).map
      (fun t => (t.result, t.tracker.missCnt, t.script)) = some (some (.polled none .statusRefused), 1, []) := by
  decide

/-- R70, R72: an unknown select is refused with nothing changed. -/
theorem test_step_unknown :
    nextOf (step (withNext (.present (.request (req 0b01111#5))) readyState)) =
      some { readyState with result := some .refused } := by
  decide

/-! ### Witnesses: for each statement with hypotheses, a state and operands that meet them, at boundary values -/

/-- A host's poll of a fresh block, and received bytes at a fresh block. -/
theorem witness_ResetState :
    (freshState.sessionState = .uninitialized ∧ decode (.request (req 0b10001#5)) = .ok .poll ∧
      Instr.hostVisible .poll = true ∧ Instr.poll ≠ .initSession ∧
      ∃ t, step (withNext (.present (.request (req 0b10001#5))) freshState) = .next t) ∧
    ∃ t, step (withNext (.arrive [0x00#8]) freshState) = .next t :=
  ⟨⟨rfl, by decide, rfl, by decide, _, rfl⟩, _, rfl⟩

theorem witness_StepRunsDecoded :
    (withNext (.present (.request (req 0b10001#5))) freshState).script = .present (.request (req 0b10001#5)) :: [] ∧
    decode (.request (req 0b10001#5)) = .ok .poll := by
  decide

/-- All four clauses; the least valid parameters, and each bound broken. -/
theorem witness_StepOtherMoves : freshState.script = [] ∧
    (withNext (.arrive [0x00#8]) freshState).script = .arrive [0x00#8] :: [] ∧
    ({ exampleParams with threshold := 1, wake55Count := 1, wake00Count := 1 } : Params).Valid ∧
    ¬ ({ exampleParams with threshold := 0 } : Params).Valid ∧ ¬ ({ exampleParams with wake55Count := 0 } : Params).Valid ∧
    ¬ ({ exampleParams with wake00Count := 0 } : Params).Valid ∧
    ({ exampleParams with uidLenOffset := 8 } : Params).Valid ∧ ¬ ({ exampleParams with uidLenOffset := 9 } : Params).Valid ∧
    ({ exampleParams with uidLenOffset := 9, tenByteUids := false } : Params).Valid := by
  decide

/-- Codes that are not listed, at every edge. -/
theorem witness_OpSelTable : [0b00000#5, 0b01111#5, 0b10011#5, 0b11111#5].all
      (fun v => decide (v.toNat ∉ [1, 2, 3, 4, 5, 6, 7, 8, 9, 10, 11, 12, 13, 14, 16, 17, 18])) = true := by
  decide

set_option maxRecDepth 8192 in
theorem witness_DecodeEncode : (Instr.frameCommand 0x02#8 (List.replicate 252 0xFF#8)).WellFormed ∧
    (Instr.frameCommand 0x02#8 [0x00#8]).WellFormed ∧
    (Instr.frameResponse 1 0x00#8 (List.replicate 253 0xFF#8) [0x01#8]).WellFormed ∧
    (Instr.frameResponse 1 0x00#8 [] []).WellFormed ∧ (Instr.wakeBytes 1 1).WellFormed ∧
    (Instr.readExactAvailable 1).WellFormed ∧ (Instr.trackerStep (some uidB)).WellFormed ∧
    (Instr.formatUid uidA).WellFormed ∧ Instr.poll.WellFormed := by
  decide

theorem witness_WireDecodeExact : decode (.wire fw) = .ok (.frameResponse 2 0x03#8 [0x32#8, 0x01#8, 0x06#8, 0x07#8] [0x00#8]) := by
  decide

/-- A poll that removes the tag, from a state at the edge of the counter's bound. -/
def lastMiss : State := withNext (.present (.request (req 0b10001#5))) (withTag (.present uidA) 2 faultedState)

theorem lastMiss_inv : lastMiss.Inv where
  settled := .inr (.inr rfl)
  latched := by decide
  kinds := fun k h => by cases h; exact .inl rfl
  restsHigh := rfl
  uidValid := fun u h => by cases h; rfl
  paramsValid := by decide

theorem witness_StepKeepsInv : lastMiss.Inv ∧ ∃ t, step lastMiss = .next t := ⟨lastMiss_inv, _, rfl⟩

theorem witness_StepKeepsMissBound : lastMiss.params.Valid ∧ lastMiss.tracker.Bounded lastMiss.params.threshold ∧
    (∀ p rest, lastMiss.script ≠ .configure p :: rest) ∧ ∃ t, step lastMiss = .next t :=
  ⟨by decide, ⟨by decide, fun _ => by decide⟩, fun _ _ h => (by cases h), _, rfl⟩

/-- A way in and a way out of `Faulted` that SessionTransitions lists are both taken. -/
theorem witness_SessionTransitions :
    (∃ t, exec (.call 0x02#8 [] 4 7) (env [writeOkDraw] (answer noTag) readyState) = .next t ∧
      t.sessionState = .faulted) ∧
    ∃ t, exec .initSession (env [writeOkDraw, writeOkDraw, writeOkDraw] (answer sam ++ answer fw) faultedState) = .next t ∧
      t.sessionState = .ready :=
  ⟨⟨_, rfl, by decide⟩, _, rfl, by decide⟩

theorem witness_FaultedUntilInitialize : lastMiss.sessionState = .faulted ∧
    (∀ c rest, lastMiss.script = .present c :: rest → decode c ≠ .ok .initSession) ∧ ∃ t, step lastMiss = .next t :=
  ⟨rfl, fun _ _ h => (by cases h; decide), _, rfl⟩

/-- A violation in `CALL`, and an `INITIALIZE` that gives up. -/
theorem witness_FaultEntry :
    (∃ t, exec (.call 0x02#8 [] 4 7) (env [writeOkDraw] (answer noTag) readyState) = .next t ∧
      t.result = some (.called (.protocolViolation .unexpectedResponse))) ∧
    ∃ t, exec .initSession (env (List.replicate 6 writeOkDraw) [[], [], [], []] freshState) = .next t ∧
      t.result = some (.initResult .initFailed) :=
  ⟨⟨_, rfl, by decide⟩, _, rfl, by decide⟩

theorem witness_DurationsIrrelevant : ∃ t, exec .poll (env [writeOkDraw] (answer tagA) readyState) = .next t := ⟨_, rfl⟩

theorem witness_StepFrame : (∃ t, step lastMiss = .next t) ∧ (∀ p rest, lastMiss.script ≠ .configure p :: rest) ∧
    lastMiss.line.rstLine = .high :=
  ⟨⟨_, rfl⟩, fun _ _ h => (by cases h), rfl⟩

/-- The two operations that pulse, one that is refused, and one that does not. -/
theorem witness_ResetPulses : (∃ t, exec .resetSequence freshState = .next t ∧ t.line.rstPulses = 1) ∧
    (∃ t, exec .initSession (env (List.replicate 6 writeOkDraw) [[], [], [], []] freshState) = .next t ∧
      t.line.rstPulses = 1) ∧
    (∃ t, exec .initSession (stateIn .busy none) = .next t ∧ t.line.rstPulses = 0) ∧
    ∃ t, exec .poll freshState = .next t ∧ t.line.rstPulses = 0 :=
  ⟨⟨_, rfl, rfl⟩, ⟨_, rfl, by decide⟩, ⟨_, rfl, rfl⟩, _, rfl, by decide⟩

theorem witness_TrackerOwned : Instr.stepsTracker .readTarget = false ∧ ∃ t, exec .readTarget lastMiss = .next t :=
  ⟨rfl, _, rfl⟩

set_option maxRecDepth 8192 in
theorem witness_CommandFrameProperties : encodeCommand 0x02#8 [] = .ok cmd02 ∧
    encodeCommand 0x40#8 (List.replicate 252 0x01#8) =
      .ok ([0x00#8, 0x00#8, 0xFF#8, 0xFE#8, 0x02#8, 0xD4#8, 0x40#8] ++ List.replicate 252 0x01#8 ++ [0xF0#8, 0x00#8]) := by
  decide

/-- What follows the leading zeros: nothing, the start byte, another byte. -/
theorem witness_DecodeResponseChecks : ([] : Bytes).head? ≠ some 0x00#8 ∧ ([0xFF#8] : Bytes).head? ≠ some 0x00#8 ∧
    ([0x01#8] : Bytes).head? ≠ some 0x00#8 := by
  decide

set_option maxRecDepth 8192 in
theorem witness_FrameRoundTrip : ([] : Bytes).length ≤ 252 ∧ encodeCommand 0x02#8 [] = .ok cmd02 ∧
    (List.replicate 252 0x01#8 : Bytes).length ≤ 252 ∧ ∃ f, encodeCommand 0x40#8 (List.replicate 252 0x01#8) = .ok f :=
  ⟨by decide, by decide, by decide, _, rfl⟩

/-- The first and the last byte the statement covers: TFI and DCS of V40 (V33, V31). -/
theorem witness_ChecksumRejection : (2 + 3 ≤ 5 ∧ 5 ≤ 2 + 4 + 5 ∧
      (responseFrame 2 0x03#8 [0x32#8, 0x01#8, 0x06#8, 0x07#8] [0x00#8])[5]? ≠ some 0xD4#8) ∧
    (2 + 3 ≤ 11 ∧ 11 ≤ 2 + 4 + 5 ∧
      (responseFrame 2 0x03#8 [0x32#8, 0x01#8, 0x06#8, 0x07#8] [0x00#8])[11]? ≠ some 0x00#8) ∧
    responseFrame 2 0x03#8 [0x32#8, 0x01#8, 0x06#8, 0x07#8] [0x00#8] = fw := by
  decide

/-- The change of 95_test_vectors section 2.6. -/
theorem witness_CancellingChangesPass :
    ([0x32#8, 0x01#8, 0x06#8, 0x07#8] : Bytes).length = ([0x33#8, 0x00#8, 0x06#8, 0x07#8] : Bytes).length ∧
    byteSum [0x32#8, 0x01#8, 0x06#8, 0x07#8] % 256 = byteSum [0x33#8, 0x00#8, 0x06#8, 0x07#8] % 256 ∧
    exec (.decodeResponse ([0x00#8, 0x00#8, 0xFF#8, BitVec.ofNat 8 (4 + 2), 0xFA#8, 0xD5#8, echoOf 0x02#8] ++
      [0x32#8, 0x01#8, 0x06#8, 0x07#8] ++ [0xE8#8] ++ [0x00#8]) 0x02#8) freshState =
      .next { freshState with result := some (.decoded (.ok [0x32#8, 0x01#8, 0x06#8, 0x07#8])) } :=
  ⟨rfl, by decide, rfl⟩

theorem witness_ClearAndWriteResult :
    (env [writeFails 4, writeOkDraw] [] readyState).line.writeDraws = writeFails 4 :: [writeOkDraw] := rfl

theorem witness_ReadExactResult : (env [] [[0x00#8], []] readyState).line.arrivals = [0x00#8] :: [[]] := rfl

theorem witness_WaitForDataResult : (env [] [[]] readyState).line.arrivals = [] :: [] := rfl

set_option maxRecDepth 8192 in
/-- Each branch of the outcome in turn: write failed, first wait empty, no ACK, second wait empty, a response. -/
theorem witness_ExchangeResults : 252 < (List.replicate 253 0x00#8 : Bytes).length ∧ ([] : Bytes).length ≤ 252 ∧
    (writeFails 0).ok = false ∧
    (writeOkDraw.ok = true ∧ writeOkDraw.arrived ++ ([] : Bytes) = []) ∧
    ((writeOkDraw.arrived ++ [0x00#8] ++ []).take 6 ≠ ack) ∧
    ((writeOkDraw.arrived ++ ack ++ []).take 6 = ack ∧ (writeOkDraw.arrived ++ ack ++ []).drop 6 ++ ([] : Bytes) = []) ∧
    ((writeOkDraw.arrived ++ (ack ++ [0x00#8]) ++ []).take 6 = ack ∧
      (writeOkDraw.arrived ++ (ack ++ [0x00#8]) ++ []).drop 6 ++ ([] : Bytes) ≠ []) ∧
    (env [writeOkDraw] [[], [], [], []] readyState).line.arrivals = [] :: [] :: [] :: [] :: [] := by
  decide

set_option maxRecDepth 8192 in
/-- A violation and a rejected request both occur. -/
theorem witness_ExchangeFrame :
    (exchange 0x02#8 [] 4 7 (env [writeOkDraw] (answer noTag) readyState).line).1 = .violation .unexpectedResponse ∧
    (exchange 0x02#8 (List.replicate 253 0x00#8) 4 7 emptyLine).1 = .badRequest .invalidParameterCount :=
  ⟨by decide, rfl⟩

/-- Every result of the exchange that the policy tells apart occurs in `Ready`; and a state that is not `Ready`. -/
theorem witness_CallPolicy : freshState.sessionState ≠ .ready ∧ readyState.sessionState = .ready ∧
    (exchange 0x02#8 [] 4 7 (env [writeOkDraw] (answer fw) readyState).line).1 =
      .payload [0x32#8, 0x01#8, 0x06#8, 0x07#8] ∧
    (exchange 0x02#8 [] 4 7 (env [writeOkDraw] silence readyState).line).1 = .noResponse ∧
    (exchange 0x02#8 [] 4 7 (env [writeFails 9] [] readyState).line).1 = .writeFailed ∧
    (exchange 0x02#8 [] 4 7 (env [writeOkDraw] [[0x00#8], []] readyState).line).1 = .violation .badAck := by
  decide

set_option maxRecDepth 8192 in
/-- No result byte, and a full frame with as many as are asked for. -/
theorem witness_CallCompletes : readyState.sessionState = .ready ∧ ([] : Bytes).length ≤ 0 ∧
    (List.replicate 253 0x00#8 : Bytes).length ≤ 253 ∧ (List.replicate 253 0x00#8 : Bytes).length ≤ 253 ∧
    (env [writeOkDraw] (answer (replyFrame 0x02#8 [])) readyState).line.writeDraws = writeOkDraw :: [] ∧
    (env [writeOkDraw] (answer (replyFrame 0x02#8 [])) readyState).line.arrivals = answer (replyFrame 0x02#8 []) ++ [] := by
  decide

theorem witness_CallWriteFailure : readyState.sessionState = .ready ∧ ([] : Bytes).length ≤ 252 ∧
    (env [writeFails 0, writeFails 5, writeFails 12] [] readyState).line.writeDraws =
      ⟨false, 0, []⟩ :: ⟨false, 5, []⟩ :: ⟨false, 12, []⟩ :: [] := by
  decide

theorem witness_LateReplyAccepted :
    let stale : Bytes := [0x32#8, 0x01#8, 0x06#8, 0x07#8]
    let s := env [{ ok := true, sent := 0, arrived := ackBytes ++ replyFrame 0x02#8 stale }]
      [ackBytes, [], replyFrame 0x02#8 [0x00#8], []] readyState
    s.sessionState = .ready ∧ ([] : Bytes).length ≤ 252 ∧ stale.length = 4 ∧ 4 ≤ 253 ∧
    s.line.writeDraws = { ok := true, sent := 0, arrived := ackBytes ++ replyFrame 0x02#8 stale } :: [] ∧
    s.line.arrivals = ackBytes :: [] :: replyFrame 0x02#8 [0x00#8] :: [] :: [] := by
  decide

/-- The refused case; four bytes at the first probe, after a silent SAM exchange; a short payload and then four bytes. -/
theorem witness_InitializeProtocol : (stateIn .busy none).sessionState = .busy ∧
    freshState.sessionState ≠ .awaitingWakeup ∧ freshState.sessionState ≠ .busy ∧
    sessionOf .initSession (env [writeOkDraw, writeOkDraw, writeOkDraw] (silence ++ answer fw) freshState) =
      some ⟨some (.initResult (.initOk ⟨0x32#8, 0x01#8, 0x06#8, 0x07#8⟩)), .ready, none, wake ++ cmd14 ++ cmd02⟩ ∧
    sessionOf .initSession (env (List.replicate 6 writeOkDraw) (silence ++ (answer (replyFrame 0x02#8 [0x32#8]) ++
        (silence ++ answer fw))) freshState) =
      some ⟨some (.initResult (.initOk ⟨0x32#8, 0x01#8, 0x06#8, 0x07#8⟩)), .ready, none,
        wake ++ cmd14 ++ cmd02 ++ wake ++ cmd14 ++ cmd02⟩ := by
  decide

theorem witness_InitializeOutcomes : (stateIn .awaitingWakeup none).sessionState = .awaitingWakeup ∧
    (stateIn .busy none).sessionState = .busy ∧ freshState.sessionState ≠ .awaitingWakeup ∧
    freshState.sessionState ≠ .busy := by
  decide

theorem witness_InitializeCompletes :
    let s := env [writeOkDraw, writeOkDraw, writeOkDraw]
      (answer (replyFrame 0x14#8 []) ++ (answer (replyFrame 0x02#8 [0x32#8, 0x01#8, 0x06#8, 0x07#8]) ++ [])) faultedState
    s.sessionState ≠ .awaitingWakeup ∧ s.sessionState ≠ .busy ∧
    s.line.writeDraws = writeOkDraw :: writeOkDraw :: writeOkDraw :: [] ∧
    s.line.arrivals =
      answer (replyFrame 0x14#8 []) ++ (answer (replyFrame 0x02#8 [0x32#8, 0x01#8, 0x06#8, 0x07#8]) ++ []) ∧
    replyFrame 0x14#8 [] = sam ∧ replyFrame 0x02#8 [0x32#8, 0x01#8, 0x06#8, 0x07#8] = fw := by
  decide

theorem witness_InitializeRetries :
    let s := env (List.replicate 6 writeOkDraw) (silence ++ (silence ++ (answer (replyFrame 0x14#8 []) ++
      (answer (replyFrame 0x02#8 [0x32#8, 0x01#8, 0x06#8, 0x07#8]) ++ [])))) freshState
    s.sessionState ≠ .awaitingWakeup ∧ s.sessionState ≠ .busy ∧
    s.line.writeDraws = List.replicate 6 writeOkDraw ++ [] ∧
    s.line.arrivals = silence ++ (silence ++ (answer (replyFrame 0x14#8 []) ++
      (answer (replyFrame 0x02#8 [0x32#8, 0x01#8, 0x06#8, 0x07#8]) ++ []))) := by
  decide

theorem witness_InitializeFails : freshState.sessionState ≠ .awaitingWakeup ∧ freshState.sessionState ≠ .busy ∧
    (env (List.replicate 6 writeOkDraw) [[], [], [], []] freshState).line.writeDraws = List.replicate 6 writeOkDraw ++ [] ∧
    (env (List.replicate 6 writeOkDraw) [[], [], [], []] freshState).line.arrivals = [] :: [] :: [] :: [] :: [] := by
  decide

/-- Each result of the call: four bytes, three bytes, silence, a violation, a refusal. -/
theorem witness_GetFirmwareIsCall :
    (runCall 0x02#8 [] 4 0 (env [writeOkDraw] (answer fw) readyState)).1 = .ok [0x32#8, 0x01#8, 0x06#8, 0x07#8] ∧
    (runCall 0x02#8 [] 4 0 (env [writeOkDraw] (answer (replyFrame 0x02#8 [0x32#8, 0x01#8, 0x06#8])) readyState)).1 =
      .ok [0x32#8, 0x01#8, 0x06#8] ∧
    (runCall 0x02#8 [] 4 0 (env [writeOkDraw] silence readyState)).1 = .noResponse ∧
    (runCall 0x02#8 [] 4 0 (env [writeOkDraw] (answer noTag) readyState)).1 = .protocolViolation .unexpectedResponse ∧
    (runCall 0x02#8 [] 4 0 freshState).1 = .refused := by
  decide

theorem witness_GetFirmwareCompletes :
    let s := env [writeOkDraw] (answer (replyFrame 0x02#8 [0x32#8, 0x01#8, 0x06#8, 0x07#8])) readyState
    s.sessionState = .ready ∧ s.line.writeDraws = writeOkDraw :: [] ∧
    s.line.arrivals = answer (replyFrame 0x02#8 [0x32#8, 0x01#8, 0x06#8, 0x07#8]) ++ [] := by
  decide

/-- Each result of the call: a payload, silence, a violation, a refusal. -/
theorem witness_ReadTargetIsCall :
    (runCall 0x4A#8 [0x01#8, 0x00#8] 19 0 (env [writeOkDraw] (answer noTag) readyState)).1 = .ok [0x00#8] ∧
    (runCall 0x4A#8 [0x01#8, 0x00#8] 19 0 (env [writeOkDraw] silence readyState)).1 = .noResponse ∧
    (runCall 0x4A#8 [0x01#8, 0x00#8] 19 0 (env [writeOkDraw] [[0x00#8], []] readyState)).1 = .protocolViolation .badAck ∧
    (runCall 0x4A#8 [0x01#8, 0x00#8] 19 0 faultedState).1 = .refused := by
  decide

/-- The longest UID, with as many bytes as the read budget of R155 allows. -/
def longTag : State := env [writeOkDraw] (answer (replyFrame 0x4A#8 ([0x01#8] ++ [0x01#8, 0x00#8, 0x44#8, 0x00#8] ++
  [BitVec.ofNat 8 (List.replicate 10 0x05#8 : Bytes).length] ++ List.replicate 10 0x05#8 ++
  [0x99#8, 0x99#8, 0x99#8])) ++ []) readyState

theorem witness_ReadTargetCompletes : longTag.sessionState = .ready ∧ isTagUid (List.replicate 10 0x05#8) = true ∧
    longTag.params.uidLenOffset = ([0x01#8, 0x00#8, 0x44#8, 0x00#8] : Bytes).length + 1 ∧
    ([0x01#8, 0x00#8, 0x44#8, 0x00#8] : Bytes).length + (List.replicate 10 0x05#8 : Bytes).length +
      ([0x99#8, 0x99#8, 0x99#8] : Bytes).length ≤ 17 ∧
    longTag.line.writeDraws = writeOkDraw :: [] ∧
    longTag.line.arrivals = answer (replyFrame 0x4A#8 ([0x01#8] ++ [0x01#8, 0x00#8, 0x44#8, 0x00#8] ++
      [BitVec.ofNat 8 (List.replicate 10 0x05#8 : Bytes).length] ++ List.replicate 10 0x05#8 ++
      [0x99#8, 0x99#8, 0x99#8])) ++ [] := by
  decide

/-- The six rows, at a shortest and a longer TagUID, the miss rows on both sides of the threshold. -/
theorem witness_TrackerStepTable : freshState.tracker.presence = .absent ∧ isTagUid uidA = true ∧
    isTagUid uidB = true ∧ uidB ≠ uidA ∧
    (withTag (.present uidA) 2 freshState).tracker.missCnt + 1 ≥ (withTag (.present uidA) 2 freshState).params.threshold ∧
    (withTag (.present uidA) 1 freshState).tracker.missCnt + 1 < (withTag (.present uidA) 1 freshState).params.threshold := by
  decide

/-- Lengths beside those of a TagUID. -/
theorem witness_TrackerStepOther : isTagUid [] = false ∧ isTagUid (uidA ++ [0x00#8]) = false ∧
    isTagUid (List.replicate 11 0x00#8) = false := by
  decide

/-- The least threshold with no miss counted, and a larger one with all but one. -/
theorem witness_DebounceProperties : 0 < 1 ∧ 0 + 0 < 1 ∧ 2 < 3 ∧ 2 + 0 < 3 ∧ uidA7 ≠ uidA := by decide

/-- V42's answer to a poll of an idle block. -/
def pollState : State := env [writeOkDraw] (answer (replyFrame 0x4A#8
  ([0x01#8] ++ [0x01#8, 0x00#8, 0x04#8, 0x08#8] ++ [BitVec.ofNat 8 uidA.length] ++ uidA)) ++ []) readyState

theorem witness_PollCompletes : pollState.sessionState = .ready ∧ pollState.tracker.presence = .absent ∧
    isTagUid uidA = true ∧ pollState.params.uidLenOffset = ([0x01#8, 0x00#8, 0x04#8, 0x08#8] : Bytes).length + 1 ∧
    ([0x01#8, 0x00#8, 0x04#8, 0x08#8] : Bytes).length + uidA.length ≤ 17 ∧
    pollState.line.writeDraws = writeOkDraw :: [] ∧
    pollState.line.arrivals = answer (replyFrame 0x4A#8
      ([0x01#8] ++ [0x01#8, 0x00#8, 0x04#8, 0x08#8] ++ [BitVec.ofNat 8 uidA.length] ++ uidA)) ++ [] ∧
    replyFrame 0x4A#8 ([0x01#8] ++ [0x01#8, 0x00#8, 0x04#8, 0x08#8] ++ [BitVec.ofNat 8 uidA.length] ++ uidA) = tagA := by
  decide

theorem witness_PollNotReady : lastMiss.sessionState ≠ .ready ∧ lastMiss.tracker.presence = .present uidA ∧
    lastMiss.tracker.missCnt + 1 ≥ lastMiss.params.threshold ∧
    (withTag (.present uidA) 1 freshState).sessionState ≠ .ready ∧
    ¬ (withTag (.present uidA) 1 freshState).tracker.missCnt + 1 ≥ (withTag (.present uidA) 1 freshState).params.threshold := by
  decide

theorem witness_FormatUidString : isTagUid uidA = true ∧ isTagUid uidB = true ∧ isTagUid (List.replicate 10 0x00#8) = true ∧
    uidA[3]? = some 0xEF#8 ∧ uidA[2]? = some 0xBE#8 ∧ 2 + 1 < uidA.length := by
  decide

set_option maxRecDepth 8192 in
theorem witness_WireTransmit : (env [writeFails 3] [] readyState).line.writeDraws = writeFails 3 :: [] ∧
    (List.replicate 252 0x00#8 : Bytes).length ≤ 252 := by
  decide

set_option maxRecDepth 8192 in
theorem witness_WireReceive : 1 ≤ 1 ∧ (List.replicate 253 0x00#8 : Bytes).length ≤ 253 ∧
    (0x00#8).toNat = ((0xFF#8).toNat + 1) % 256 := by
  decide

theorem witness_EnumerationCodes : isTagUid uidB = true := by decide

/-- No instruction is encoded as no bytes. -/
theorem no_empty_encoding (i : Instr) (hi : i.WellFormed) : encode i ≠ .wire [] := by
  intro h
  cases i <;> simp only [encode, Code.wire.injEq, reduceCtorEq] at h
  case wakeBytes a b =>
    have hl := congrArg List.length h
    simp only [Instr.WellFormed, Instr.wf, Bool.and_eq_true, decide_eq_true_eq] at hi
    simp only [wakePattern, List.length_append, List.length_replicate, List.length_nil] at hl
    omega
  case frameAck => cases h
  all_goals
    have hl := congrArg List.length h
    simp at hl

/-- Bytes of no pattern, parameters that are excluded, and a request. -/
theorem witness_StepRefusals :
    (withNext (.present (.wire [])) readyState).script = .present (.wire []) :: [] ∧
    (∀ i : Instr, i.WellFormed → encode i ≠ .wire []) ∧
    (withNext (.configure { exampleParams with uidLenOffset := 9 }) readyState).script =
      .configure { exampleParams with uidLenOffset := 9 } :: [] ∧
    ¬ ({ exampleParams with uidLenOffset := 9 } : Params).Valid ∧
    (withNext (.present (.request (req 0b10000#5))) readyState).script = .present (.request (req 0b10000#5)) :: [] :=
  ⟨rfl, no_empty_encoding, rfl, by decide, rfl⟩

end Sys2Proof.Tests
end

/-! ### Reset and the uninitialized session (10_state R24) -/

namespace Sys2Proof.Machine

/-- `POLL` is `READ_TARGET` followed by a write of the tracker alone (R175). -/
theorem runPoll_state (s : State) : ∃ tr, (runPoll s).2 = (runReadTarget s).2.setTracker tr := ⟨_, rfl⟩

/-- Outside `Ready`, an operation the host may request other than `INITIALIZE` leaves the session state and the whole of
Transport's part alone: it is a pure function, a tracker step, or a call that is refused (R145, R200). -/
theorem exec_hostVisible_keeps_session_line {i : Instr} {s t : State} (hv : i.hostVisible = true)
    (hi : i ≠ .initSession) (hs : s.sessionState ≠ .ready) (h : exec i s = .next t) :
    t.sessionState = s.sessionState ∧ t.line = s.line := by
  have hcall := runCall_refused hs
  have hread : (runReadTarget s).2 = s := by rw [runReadTarget_state, hcall]
  cases i with
  | encodeCommand | decodeAck | decodeResponse | formatUid => cases h; exact ⟨rfl, rfl⟩
  | initSession => exact absurd rfl hi
  | call op ps n tmo => cases h; simp [hcall]
  | getFirmwareVersion => cases h; simp [runGetFirmware_state, hcall]
  | readTarget => cases h; simp [hread]
  | poll =>
    cases h
    obtain ⟨tr, htr⟩ := runPoll_state s
    simp [htr, hread]
  | trackerStep raw =>
    cases h
    obtain ⟨k, hk⟩ := s.drawRaw_frame raw
    simp [stepTracker, hk]
  | _ => cases hv

/-- R24 for a step: an uninitialized session that is not asked for `INITIALIZE` stays so, sends nothing and leaves the
reset line alone. Of Transport's part only `rxbuf` can change, by bytes that arrive. -/
theorem step_keeps_uninitialized {s t : State} (hs : s.sessionState = .uninitialized)
    (hreq : ∀ c rest i, s.script = .present c :: rest → decode c = .ok i → i.hostVisible = true ∧ i ≠ .initSession)
    (h : step s = .next t) :
    t.sessionState = .uninitialized ∧ ∃ rx, t.line = { s.line with rxbuf := rx } := by
  rcases step_cases h with ⟨-, rfl⟩ | ⟨c, rest, i, hsc, hd, hx⟩ | ⟨c, rest, sel, -, -, rfl⟩ | ⟨bs, rest, -, rfl⟩ |
    ⟨p, rest, -, -, rfl⟩
  case inr.inl =>
    obtain ⟨hv, hi⟩ := hreq c rest i hsc hd
    obtain ⟨h1, h2⟩ := exec_hostVisible_keeps_session_line hv hi (by simp [hs]) hx
    exact ⟨h1.trans hs, _, h2⟩
  all_goals exact ⟨hs, _, rfl⟩

/-- Settles O1: the values at reset are the record's own, and a step without `INITIALIZE` changes nothing of Transport's
part but `rxbuf`. -/
theorem resetState : Obligations.ResetState := by
  refine ⟨⟨rfl, rfl, rfl, rfl, rfl, rfl, rfl⟩, fun s t hs hreq h => ?_⟩
  obtain ⟨hses, rx, hline⟩ := step_keeps_uninitialized hs hreq h
  exact ⟨hses, by simp [hline]⟩

end Sys2Proof.Machine

/-! ### FrameCodec's results in the terms of its rules (40_framecodec R90, R94, R96) -/

namespace Sys2Proof.Machine

/-- The three operations put the function's value on the result port and change nothing else. -/
theorem exec_encodeCommand (opcode : Byte) (params : Bytes) (s : State) :
    exec (.encodeCommand opcode params) s = .next (s.deliver (.encoded (encodeCommand opcode params))) := rfl

theorem exec_decodeAck (bytes : Bytes) (s : State) :
    exec (.decodeAck bytes) s = .next (s.deliver (.ack (decodeAck bytes))) := rfl

theorem exec_decodeResponse (bytes : Bytes) (expected : Byte) (s : State) :
    exec (.decodeResponse bytes expected) s = .next (s.deliver (.decoded (decodeResponse bytes expected))) := rfl

/-- Up to 256 the negated byte is the plain difference: LCS is `256 - LEN` (R90). -/
theorem neg8_of_le {x : Nat} (h0 : 0 < x) (h : x ≤ 256) : neg8 x = BitVec.ofNat 8 (256 - x) := by
  apply BitVec.eq_of_toNat_eq
  rw [neg8_toNat, ofNat8_toNat]
  omega

/-- Settles O19: the two cases of the parameter count, and in the second the bytes of `commandFrame_eq`. -/
theorem encodeCommandResult : Obligations.EncodeCommandResult := by
  intro op ps s
  rw [exec_encodeCommand]
  by_cases h : 252 < ps.length
  · rw [encodeCommand_error op h, if_pos h]
    rfl
  · rw [encodeCommand_ok op (by omega), if_neg h, commandFrame_eq, neg8_of_le (by omega) (by omega)]
    rfl

/-- Settles O21: `decode_ack` compares with the six bytes of `ackBytes`. -/
theorem decodeAckResult : Obligations.DecodeAckResult := by
  intro b s
  have h : decodeAck b = decide (b = ackBytes) := by rw [Bool.eq_iff_iff, decodeAck_iff, decide_eq_true_iff]
  rw [exec_decodeAck, h]
  rfl

/-- A byte is the echo when its value is the opcode's successor mod 256 (R63, D13). -/
theorem eq_echoOf_iff (x opcode : Byte) : x = echoOf opcode ↔ x.toNat = (opcode.toNat + 1) % 256 := by
  rw [← BitVec.toNat_inj, echoOf_toNat]

/-- Step 4 of R96 on the window of a longer input: its three tests are one, and the result bytes are the input's own. -/
theorem decodePayload_take (len : Nat) (rest : Bytes) (op : Byte) :
    decodePayload len (rest.take (len + 1)) op =
      if len < 2 ∨ rest.getD 0 0x00#8 ≠ 0xD5#8 ∨ (rest.getD 1 0x00#8).toNat ≠ (op.toNat + 1) % 256 then
        .error .unexpectedResponse
      else .ok ((rest.drop 2).take (len - 2)) := by
  rw [ite_or, ite_or, decodePayload]
  by_cases hl : len < 2
  · rw [if_pos hl, if_pos hl]
  have h0 : (rest.take (len + 1)).getD 0 0x00#8 = rest.getD 0 0x00#8 := by
    simp only [List.getD_eq_getElem?_getD, List.getElem?_take_of_lt (Nat.succ_pos len)]
  have h1 : (rest.take (len + 1)).getD 1 0x00#8 = rest.getD 1 0x00#8 := by
    simp only [List.getD_eq_getElem?_getD, List.getElem?_take_of_lt (show 1 < len + 1 by omega)]
  have hd : ((rest.take (len + 1)).drop 2).take (len - 2) = (rest.drop 2).take (len - 2) := by
    rw [List.drop_take, List.take_take, Nat.min_eq_left (by omega)]
  simp only [if_neg hl, h0, h1, hd, ne_eq, eq_echoOf_iff, tfiDevice]

/-- Steps 1 to 4 of R96 after the leading zeros, as tests on the bytes from the start byte on. -/
theorem decodeStart_checks (rest : Bytes) (op : Byte) :
    decodeStart rest op =
      if rest.head? ≠ some 0xFF#8 then .error .missingStartCode
      else if rest.length < 3 then .error .truncatedFrame
      else if ((rest.getD 1 0#8).toNat + (rest.getD 2 0#8).toNat) % 256 ≠ 0 then .error .lengthChecksumMismatch
      else if rest.length < (rest.getD 1 0#8).toNat + 4 then .error .truncatedFrame
      else if byteSum ((rest.drop 3).take ((rest.getD 1 0#8).toNat + 1)) % 256 ≠ 0 then .error .dataChecksumMismatch
      else if (rest.getD 1 0#8).toNat < 2 ∨ rest.getD 3 0#8 ≠ 0xD5#8 ∨
          (rest.getD 4 0#8).toNat ≠ (op.toNat + 1) % 256 then .error .unexpectedResponse
      else .ok ((rest.drop 5).take ((rest.getD 1 0#8).toNat - 2)) := by
  match rest with
  | [] => simp [decodeStart]
  | x :: tail =>
    obtain rfl | hx := eq_or_ne x 0xFF#8
    · match tail with
      | [] => rfl
      | [_] => rfl
      | len :: lcs :: window =>
        have h3 : ¬ window.length + 1 + 1 + 1 < 3 := by omega
        have hw : window.length + 1 + 1 + 1 < len.toNat + 4 ↔ window.length < len.toNat + 1 := by omega
        simp only [decodeStart, startByte, decodeHeader, decodeWindow, decodePayload_take, List.head?_cons,
          List.length_cons, List.getD_cons_succ, List.getD_cons_zero, List.drop_succ_cons, List.drop_zero, ne_eq,
          not_true_eq_false, if_false, h3, hw]
    · simp [decodeStart, startByte, hx]

/-- Settles O22: the split is `leadingCount_split`; over it the decoder skips the zeros and runs `decodeStart`, and a missing
zero and a missing start byte have one result. -/
theorem decodeResponseChecks : Obligations.DecodeResponseChecks := by
  refine ⟨fun b => ⟨_, _, leadingCount_split 0x00#8 b⟩, fun z rest op s h => ?_⟩
  rw [exec_decodeResponse, decodeResponse_split z rest op h, decodeStart_checks, ← ite_or]
  rfl

end Sys2Proof.Machine

/-! ### What Transport's operations answer and leave (41_transport R110, R116) -/

namespace Sys2Proof.Machine

/-- An operation of Transport replaces Transport's part and puts its answer on the result port; nothing else changes. -/
theorem exec_clearAndWrite (out : Bytes) (s : State) :
    exec (.clearAndWrite out) s = .next { s with
      line := (clearAndWrite out s.line).2, result := some (.written (clearAndWrite out s.line).1) } := rfl

theorem exec_waitForData (timeout : Nat) (s : State) :
    exec (.waitForData timeout) s = .next { s with
      line := (waitForData timeout s.line).2, result := some (.ready (waitForData timeout s.line).1) } := rfl

/-- The discard that opens `clear_and_write` does not touch the script: the write makes the script's next draw (R44). -/
theorem Line.discard_drawWrite_scripted {l : Line} {d : WriteDraw} {ds : List WriteDraw}
    (h : l.writeDraws = d :: ds) : l.discard.drawWrite.1 = d := by
  rw [Line.drawWrite_scripted (l := l.discard) h]

/-- Settles O28: the draw is the one `clearAndWrite_spec` names, and under a script `clearAndWrite_scripted` tells what is
left of it. -/
theorem clearAndWriteResult : Obligations.ClearAndWriteResult := by
  intro out s
  obtain ⟨d, hd, hres, hrx, htx, hrst, hpulses, harr⟩ := clearAndWrite_spec out s.line
  refine ⟨d, _, ?_, hrx, htx, hrst, hpulses, harr, fun d' ds hscript => ⟨?_, ?_⟩⟩
  · rw [exec_clearAndWrite, hres]
  · rw [hd, Line.discard_drawWrite_scripted hscript]
  · rw [clearAndWrite_scripted out hscript]
    exact ⟨rfl, rfl⟩

/-- Settles O30: the arrival is the one `waitForData_spec` names, and under a script `waitForData_scripted` tells what is
left of it. -/
theorem waitForDataResult : Obligations.WaitForDataResult := by
  intro tmo s
  obtain ⟨bs, hbs, hres, hrx, htx, hrst, hpulses, hdraws⟩ := waitForData_spec tmo s.line
  refine ⟨bs, _, ?_, hrx, htx, hrst, hpulses, hdraws, fun bs' rest hscript => ⟨?_, ?_⟩⟩
  · rw [exec_waitForData, hres]
  · rw [hbs, Line.drawArrival_scripted hscript]
  · rw [waitForData_scripted tmo hscript]
    exact ⟨rfl, rfl⟩

end Sys2Proof.Machine

/-! ### An exchange and the call's policy over it (42_session R140, R145) -/

namespace Sys2Proof.Machine

/-- An exchange and a wake-up replace Transport's part and a call what `runCall` tells; each puts its result on the result
port, and nothing else changes. -/
theorem exec_exchange (op : Byte) (ps : Bytes) (n tmo : Nat) (s : State) :
    exec (.exchange op ps n tmo) s = .next { s with
      line := (exchange op ps n tmo s.line).2, result := some (.exchanged (exchange op ps n tmo s.line).1) } := rfl

theorem exec_wakeup (s : State) :
    exec .wakeup s = .next { s with line := wakeup s.params s.line, result := some .done } := rfl

theorem exec_call (op : Byte) (ps : Bytes) (n tmo : Nat) (s : State) :
    exec (.call op ps n tmo) s = .next { (runCall op ps n tmo s).2 with
      result := some (.called (runCall op ps n tmo s).1) } := rfl

/-- Above 252 parameters nothing is sent (R140, R195). -/
theorem exchange_badRequest {op : Byte} {ps : Bytes} {n tmo : Nat} {l : Line} (h : 252 < ps.length) :
    exchange op ps n tmo l = (.badRequest .invalidParameterCount, l) := by
  have hf : encodeCommand op ps = .error .invalidParameterCount := if_pos h
  rw [exchange, hf]

/-- Settles O32: one scripted law for each of the exchange's three phases (write, acknowledgement, response); the cases are
the points at which it can end. -/
theorem exchangeResults : Obligations.ExchangeResults := by
  intro s op ps n tmo
  refine ⟨fun h => by rw [exec_exchange, exchange_badRequest h], fun d ws a1 a2 a3 a4 rest hp hw ha => ?_⟩
  rw [exec_exchange, exchange_scripted op ps n tmo hp hw, ← ackBytes]
  by_cases hd : d.ok = false
  · simp only [if_pos hd]
  simp only [if_neg hd]
  rw [awaitAck_scripted op n tmo (show ({ s.line with
    rxbuf := d.arrived, txlog := s.line.txlog ++ commandFrame op ps, writeDraws := ws } : Line).arrivals = _ from ha)]
  by_cases h1 : d.arrived ++ a1 = []
  · simp only [if_pos h1]
  simp only [if_neg h1]
  by_cases hack : (d.arrived ++ a1 ++ a2).take 6 ≠ ackBytes
  · simp only [if_pos hack]
  simp only [if_neg hack]
  rw [awaitResponse_scripted op n tmo rfl]
  by_cases h3 : (d.arrived ++ a1 ++ a2).drop 6 ++ a3 = []
  · simp only [if_pos h3]
  · cases decodeResponse (((d.arrived ++ a1 ++ a2).drop 6 ++ a3 ++ a4).take (n + 9)) op <;> simp only [if_neg h3]

/-- Settles O36: `runCall_refused` outside `Ready`; in `Ready`, `runCall_ready` at each of the exchange's five results. -/
theorem callPolicy : Obligations.CallPolicy := by
  intro s op ps n tmo
  refine ⟨fun h => by rw [exec_call, runCall_refused h], fun h => ⟨_, _, exec_exchange op ps n tmo s, ?_⟩⟩
  rw [exec_call, runCall_ready h]
  refine ⟨fun p hr => ?_, fun hr => ?_, fun hr => ⟨_, exec_wakeup _, ?_⟩, fun k hr => ?_, fun k hr => ?_⟩ <;> rw [hr]

end Sys2Proof.Machine

/-! ### What the composite operations make of a call's result (42_session R150, R155) -/

namespace Sys2Proof.Machine

/-- Four result bytes are a firmware version, and fewer are none (30_encoding R67). -/
theorem fwVersionOf_of_le {p : Bytes} (h : 4 ≤ p.length) :
    fwVersionOf p = some ⟨p.getD 0 0#8, p.getD 1 0#8, p.getD 2 0#8, p.getD 3 0#8⟩ := by
  match p, h with
  | _ :: _ :: _ :: _ :: _, _ => rfl

theorem fwVersionOf_of_lt {p : Bytes} (h : p.length < 4) : fwVersionOf p = none := by
  match p, h with
  | [], _ => rfl
  | [_], _ => rfl
  | [_, _], _ => rfl
  | [_, _, _], _ => rfl

/-- The tests of R155 in the rule's order, the last one on the length byte (D27). -/
theorem uidOf_checks (offset : Nat) (p : Bytes) :
    uidOf offset p =
      if p.length < 1 ∨ p.getD 0 0#8 ≠ 0x01#8 then none
      else if p.length < offset + 1 then none
      else if p.length < offset + 1 + (p.getD offset 0#8).toNat then none
      else if (p.getD offset 0#8).toNat ∉ [4, 7, 10] then none
      else some ((p.drop (offset + 1)).take (p.getD offset 0#8).toNat) := by
  have hlen : ∀ u : Nat, u ∉ [4, 7, 10] ↔ ¬ (u = 4 ∨ u = 7 ∨ u = 10) := by simp
  simp only [uidOf, hlen, ite_not]

/-- Both operations run one call and put on the result port what they make of its result. -/
theorem exec_getFirmwareVersion (s : State) :
    exec .getFirmwareVersion s = .next { (runCall 0x02#8 [] 4 s.params.cmdTimeout s).2 with
      result := some (.firmware (fwResultOf (runCall 0x02#8 [] 4 s.params.cmdTimeout s).1)) } := rfl

theorem exec_readTarget (s : State) :
    exec .readTarget s = .next { (runCall 0x4A#8 [0x01#8, s.params.baudRateCode] 19 s.params.shortTimeout s).2 with
      result := some (.target
        (targetOf s.params.uidLenOffset (runCall 0x4A#8 [0x01#8, s.params.baudRateCode] 19 s.params.shortTimeout s).1).1
        (targetOf s.params.uidLenOffset
          (runCall 0x4A#8 [0x01#8, s.params.baudRateCode] 19 s.params.shortTimeout s).1).2) } := rfl

/-- Settles O45: the call is `exec_call`'s, and the operation's result is `fwResultOf` of the call's, result by result. -/
theorem getFirmwareIsCall : Obligations.GetFirmwareIsCall := by
  intro s
  rw [exec_getFirmwareVersion]
  refine ⟨_, _, exec_call 0x02#8 [] 4 s.params.cmdTimeout s, fun p hr hp => ?_, fun p hr hp => ?_, fun hr => ?_,
    fun k hr => ?_, fun hr => ?_, runCall_ne_badRequest (Nat.zero_le _)⟩
  · rw [hr, fwResultOf, fwVersionOf_of_le hp]
  · rw [hr, fwResultOf, fwVersionOf_of_lt hp]
  all_goals rw [hr, fwResultOf]

/-- Settles O47: the call is `exec_call`'s, the operation's result is `targetOf` of the call's, and for a payload the tests
are those of `uidOf_checks`. -/
theorem readTargetIsCall : Obligations.ReadTargetIsCall := by
  intro s
  rw [exec_readTarget]
  refine ⟨_, _, exec_call 0x4A#8 [0x01#8, s.params.baudRateCode] 19 s.params.shortTimeout s, fun hr => ?_,
    fun k hr => ?_, fun hr => ?_, runCall_ne_badRequest (by simp), fun p hr => ?_⟩
  · rw [hr, targetOf]
  · rw [hr, targetOf]
  · rw [hr, targetOf]
  · rw [hr, targetOf, uidOf_checks]

end Sys2Proof.Machine

/-! ### INITIALIZE attempt by attempt (42_session R130) -/

namespace Sys2Proof.Machine

/-- One attempt of `INITIALIZE`: the wake-up, then the exchange of the firmware probe. -/
def attempt (p : Params) (l : Line) : ExchangeResult × Line := exchange opFirmware [] fwResultLen p.cmdTimeout (wakeup p l)

/-- The state inside `INITIALIZE` after its reset sequence: `AwaitingWakeup` with the latch cleared, Transport's part `l`. -/
def State.awaiting (s : State) (l : Line) : State :=
  { s with faultKind := none, sessionState := .awaitingWakeup, line := l }

/-- As instructions, an attempt is `WAKEUP` and then the probe's `EXCHANGE`. -/
theorem exec_attempt (s : State) (l : Line) : ∃ u, exec .wakeup (s.awaiting l) = .next u ∧
    exec (.exchange 0x02#8 [] 4 s.params.cmdTimeout) u = .next { s.awaiting (attempt s.params l).2 with
      result := some (.exchanged (attempt s.params l).1) } := ⟨_, rfl, rfl⟩

/-- The probe succeeds on a payload of at least four bytes and on nothing else (D20). -/
theorem probeOf_payload {p : Bytes} (h : 4 ≤ p.length) :
    probeOf (.payload p) = some ⟨p.getD 0 0#8, p.getD 1 0#8, p.getD 2 0#8, p.getD 3 0#8⟩ := fwVersionOf_of_le h

theorem probeOf_eq_none {r : ExchangeResult} (h : ∀ p, r = .payload p → p.length < 4) : probeOf r = none := by
  cases r with
  | payload p => exact fwVersionOf_of_lt (h p rfl)
  | _ => rfl

/-- An attempt whose probe succeeds is the last one; after any other the remaining ones follow. -/
theorem attempts_succ_of_some {p : Params} {k : Nat} {l : Line} {v : FwVersion}
    (h : probeOf (attempt p l).1 = some v) : attempts p (k + 1) l = (some v, (attempt p l).2) := by
  unfold attempt at h
  simp only [attempts, attempt, h]

theorem attempts_succ_of_none {p : Params} {k : Nat} {l : Line} (h : probeOf (attempt p l).1 = none) :
    attempts p (k + 1) l = attempts p k (attempt p l).2 := by
  unfold attempt at h
  simp only [attempts, attempt, h]

/-- Where `INITIALIZE` runs, it is one reset sequence, the attempts and the end their outcome calls for. -/
theorem exec_initSession_of_attempts {s : State} {r : Option FwVersion} {l : Line}
    (h1 : s.sessionState ≠ .awaitingWakeup) (h2 : s.sessionState ≠ .busy)
    (h : attempts s.params 2 (resetSequence s.line) = (r, l)) :
    exec .initSession s = .next (match r with
      | some v => { s with
          sessionState := .ready, faultKind := none, line := l, result := some (.initResult (.initOk v)) }
      | none => { s with
          sessionState := .faulted, faultKind := some .initFailed, line := l,
          result := some (.initResult .initFailed) }) := by
  have hrun : runInitialize s = finishInit r (s.awaiting l) := by
    have hne : ¬ (s.sessionState = .awaitingWakeup ∨ s.sessionState = .busy) := not_or.mpr ⟨h1, h2⟩
    have ha : attempts s.params (1 + wakeupRetries) (resetSequence s.line) = (r, l) := h
    simp only [runInitialize, if_neg hne, State.setSession_line, State.setSession_params, State.setLine_line,
      State.setLine_params, State.clearFault_params, ha]
    rfl
  simp only [exec, execInitialize, hrun]
  cases r <;> rfl

/-- Settles O40: `exec_attempt` twice gives the two attempts' states, and `attempts_succ_of_some` and
`attempts_succ_of_none` tell from the probes' results which attempt the operation ends with. -/
theorem initializeProtocol : Obligations.InitializeProtocol := by
  intro s
  refine ⟨fun h => ?_, fun h1 h2 => ?_⟩
  · simp only [exec, execInitialize, runInitialize, if_pos h]
    rfl
  obtain ⟨u1, hw1, he1⟩ := exec_attempt s (resetSequence s.line)
  obtain ⟨u2, hw2, he2⟩ := exec_attempt s (attempt s.params (resetSequence s.line)).2
  refine ⟨u1, s.awaiting _, u2, s.awaiting _, _, _, hw1, he1, hw2, he2, fun p hr hp => ?_,
    fun hr1 => ⟨fun p hr2 hp => ?_, fun hr2 => ?_⟩⟩
  · have hp1 := hr ▸ probeOf_payload hp
    exact exec_initSession_of_attempts h1 h2 (attempts_succ_of_some hp1)
  · have hp2 := hr2 ▸ probeOf_payload hp
    exact exec_initSession_of_attempts h1 h2
      ((attempts_succ_of_none (probeOf_eq_none hr1)).trans (attempts_succ_of_some hp2))
  · exact exec_initSession_of_attempts h1 h2
      ((attempts_succ_of_none (probeOf_eq_none hr1)).trans (attempts_succ_of_none (probeOf_eq_none hr2)))

end Sys2Proof.Machine

/-! ### The digits of FORMAT_UID (43_tracker R178) -/

namespace Sys2Proof.Machine

theorem exec_formatUid (uid : Bytes) (s : State) :
    exec (.formatUid uid) s = .next { s with result := some (.text (formatUid uid)) } := rfl

/-- Below 16 the model's digit is the one the table of R178 has at that place. -/
theorem hexTable_getElem? {n : Nat} (h : n < 16) :
    ['0', '1', '2', '3', '4', '5', '6', '7', '8', '9', 'A', 'B', 'C', 'D', 'E', 'F'][n]? = some (hexDigit n) := by
  rw [hexDigit, List.getD_eq_getElem?_getD, List.getElem?_eq_getElem h, Option.getD_some]

theorem hexTail_length (uid : Bytes) : (hexTail uid).length = 3 * uid.length := by
  induction uid with
  | nil => rfl
  | cons b bs ih =>
    simp only [hexTail, hexPair, List.length_cons, List.length_append, List.length_nil, ih]
    omega

/-- In `hexTail` every byte is a group of three characters, so `k` groups dropped are `k` bytes dropped. -/
theorem hexTail_drop (uid : Bytes) (k : Nat) : (hexTail uid).drop (3 * k) = hexTail (uid.drop k) := by
  induction k generalizing uid with
  | zero => rfl
  | succ k ih =>
    cases uid with
    | nil => exact List.drop_nil
    | cons b bs => exact ih bs

/-- The group of byte `k`: its separator, then its two digits. -/
theorem hexTail_group {uid : Bytes} {k : Nat} {b : Byte} (h : uid[k]? = some b) :
    (hexTail uid)[3 * k]? = some ':' ∧ (hexTail uid)[3 * k + 1]? = some (hexDigit (b.toNat / 16)) ∧
      (hexTail uid)[3 * k + 2]? = some (hexDigit (b.toNat % 16)) := by
  obtain ⟨hk, hb⟩ := List.getElem?_eq_some_iff.mp h
  have hgroup : (hexTail uid).drop (3 * k) = ':' :: (hexPair b ++ hexTail (uid.drop (k + 1))) := by
    rw [hexTail_drop, List.drop_eq_getElem_cons hk, hb, hexTail]
  have hread (j : Nat) : (hexTail uid)[3 * k + j]? = (':' :: (hexPair b ++ hexTail (uid.drop (k + 1))))[j]? := by
    rw [← hgroup, List.getElem?_drop]
  exact ⟨hread 0, hread 1, hread 2⟩

/-- The string is the groups of all bytes without the first separator. -/
theorem formatUid_eq_drop (uid : Bytes) : formatUid uid = (hexTail uid).drop 1 := by cases uid <;> rfl

theorem formatUid_getElem? (uid : Bytes) (i : Nat) : (formatUid uid)[i]? = (hexTail uid)[i + 1]? := by
  rw [formatUid_eq_drop, List.getElem?_drop, Nat.add_comm]

/-- Settles O55: the digits of byte `k` are those of its group in `hexTail`, and the colon after them is the separator that
opens the group of byte `k + 1`. -/
theorem formatUidString : Obligations.FormatUidString := by
  refine fun uid s _ => ⟨formatUid uid, exec_formatUid uid s, ?_, fun k b hb => ?_⟩
  · rw [formatUid_eq_drop, List.length_drop, hexTail_length]
  have hlt : b.toNat < 256 := b.isLt
  obtain ⟨-, hhigh, hlow⟩ := hexTail_group hb
  rw [formatUid_getElem?, formatUid_getElem?, formatUid_getElem?]
  refine ⟨hhigh.trans (hexTable_getElem? (by omega)).symm, hlow.trans (hexTable_getElem? (by omega)).symm, fun hk => ?_⟩
  exact (hexTail_group (List.getElem?_eq_getElem hk)).1

end Sys2Proof.Machine

/-! ### A tracker step row by row, and the poll made of it (43_tracker R170, R175) -/

namespace Sys2Proof.Machine

/-- `TRACKER_STEP` of a raw poll result replaces the tracker's part by what `trackerStep` tells and puts the event on the
result port; nothing else changes. -/
theorem exec_trackerStep {raw : Option Bytes} (h : isRawResult raw = true) (s : State) :
    exec (.trackerStep raw) s = .next { s with
      tracker := (trackerStep s.params.threshold raw s.tracker).2,
      result := some (.event (trackerStep s.params.threshold raw s.tracker).1) } := by
  show execTrackerStep raw s = _
  rw [execTrackerStep, State.drawRaw_raw h]
  rfl

/-- The rows of a TagUID. -/
theorem trackerStep_appear {th : Nat} {t : Tracker} (uid : Bytes) (h : t.presence = .absent) :
    trackerStep th (some uid) t = (some (.tagAppeared uid), { presence := .present uid, missCnt := 0 }) := by
  simp only [trackerStep, trackerHit, h]

theorem trackerStep_change {th : Nat} {t : Tracker} {u uid : Bytes} (h : t.presence = .present u) (hne : uid ≠ u) :
    trackerStep th (some uid) t = (some (.tagChanged u uid), { presence := .present uid, missCnt := 0 }) := by
  simp only [trackerStep, trackerHit, h, if_neg hne]

theorem trackerStep_same {th : Nat} {t : Tracker} {u : Bytes} (h : t.presence = .present u) :
    trackerStep th (some u) t = (none, { presence := .present u, missCnt := 0 }) := by
  simp only [trackerStep, trackerHit, h, if_true]

/-- The rows of a miss: while a tag is present, at the threshold and below it, and while none is. -/
theorem trackerStep_remove {th : Nat} {t : Tracker} {u : Bytes} (h : t.presence = .present u) (hth : t.missCnt + 1 ≥ th) :
    trackerStep th none t = (some (.tagRemoved u), { presence := .absent, missCnt := t.missCnt + 1 }) := by
  simp only [trackerStep, trackerMiss, h, if_pos hth]

theorem trackerStep_miss {th : Nat} {t : Tracker} {u : Bytes} (h : t.presence = .present u) (hth : t.missCnt + 1 < th) :
    trackerStep th none t = (none, { presence := .present u, missCnt := t.missCnt + 1 }) := by
  simp only [trackerStep, trackerMiss, h, if_neg (Nat.not_le.mpr hth)]

theorem trackerStep_idle {th : Nat} {t : Tracker} (h : t.presence = .absent) : trackerStep th none t = (none, t) := by
  simp only [trackerStep, trackerMiss, h]

/-- Settles O49: every clause is `exec_trackerStep` at the row of that case. -/
theorem trackerStepTable : Obligations.TrackerStepTable := by
  refine fun s => ⟨fun uid huid h => ?_, fun u uid huid h hne => ?_, fun u hu h => ?_, fun u h hth => ?_,
    fun u h hth => ?_, fun h => ?_⟩
  · rw [exec_trackerStep (raw := some uid) huid, trackerStep_appear uid h]
  · rw [exec_trackerStep (raw := some uid) huid, trackerStep_change h hne]
  · rw [exec_trackerStep (raw := some u) hu, trackerStep_same h]
  · rw [exec_trackerStep rfl, trackerStep_remove h hth]
  · rw [exec_trackerStep rfl, trackerStep_miss h hth]
  · rw [exec_trackerStep rfl, trackerStep_idle h]

/-- `POLL` leaves what its read left, with the tracker stepped on the UID read, and reports the step's event beside the
read's status. -/
theorem exec_poll {s t : State} {uid : Option Bytes} {st : PollStatus} (h : runReadTarget s = ((uid, st), t)) :
    exec .poll s = .next { t with
      tracker := (trackerStep t.params.threshold uid t.tracker).2,
      result := some (.polled (trackerStep t.params.threshold uid t.tracker).1 st) } := by
  simp only [exec, execPoll, runPoll, h]
  rfl

/-- Settles O52: what `READ_TARGET` reads is a raw poll result, so the step on it is the one `exec_poll` tells. -/
theorem pollIsReadThenStep : Obligations.PollIsReadThenStep := by
  intro s
  have hraw := runReadTarget_isRaw s
  rcases hread : runReadTarget s with ⟨⟨uid, st⟩, t⟩
  rw [hread] at hraw
  refine ⟨uid, st, t, t.setTracker (trackerStep t.params.threshold uid t.tracker).2, _, ?_, exec_trackerStep hraw t,
    exec_poll hread⟩
  simp only [exec, execReadTarget, hread]
  rfl

end Sys2Proof.Machine

/-! ### Entering Faulted (60_exceptions R197) -/

namespace Sys2Proof.Machine

/-- A call reports a violation only where its exchange found it, and then enters `Faulted` from the exchange's own state
(R145, R197). -/
theorem runCall_of_protocolViolation {op : Byte} {ps : Bytes} {n tmo : Nat} {s : State} {k : ErrorKind}
    (h : (runCall op ps n tmo s).1 = .protocolViolation k) :
    (exchange op ps n tmo s.line).1 = .violation k ∧
      (runCall op ps n tmo s).2 =
        { s with line := (exchange op ps n tmo s.line).2, sessionState := .faulted, faultKind := some k } := by
  by_cases hs : s.sessionState = .ready
  · rw [runCall_ready hs] at h ⊢
    cases hx : (exchange op ps n tmo s.line).1 with rw [hx] at h
    | violation k' => cases h; exact ⟨rfl, rfl⟩
    | _ => cases h
  · rw [runCall_refused hs] at h
    cases h

/-- Where another request is in progress `INITIALIZE` is refused (R130). -/
theorem exec_initSession_refused {s : State} (h : s.sessionState = .awaitingWakeup ∨ s.sessionState = .busy) :
    exec .initSession s = .next { s with result := some (.initResult .refused) } := by
  simp only [exec, execInitialize, runInitialize, if_pos h]
  rfl

/-- Attempts that follow a reset sequence leave the reset line high and its one pulse counted (R18, R119). -/
theorem attempts_resetSequence_line (p : Params) (k : Nat) (l : Line) :
    (attempts p k (resetSequence l)).2.rstLine = .high ∧
      (attempts p k (resetSequence l)).2.rstPulses = l.rstPulses + 1 := by
  obtain ⟨-, hrst, hpulses⟩ := attempts_extends p k (resetSequence l)
  rw [hrst, hpulses, resetSequence_eq]
  exact ⟨rfl, rfl⟩

/-- Settles O13: for `CALL`, `runCall_of_protocolViolation`; for `INITIALIZE`, of the ends it can come to (refused, an
attempt that succeeded, none that did) only the last one reports `InitFailed`. -/
theorem faultEntry : Obligations.FaultEntry := by
  refine ⟨fun op ps n tmo s t k hx hr => ?_, fun s t hx hr => ?_⟩
  · rw [exec_call] at hx
    cases hx
    have hcall : (runCall op ps n tmo s).1 = .protocolViolation k := by simpa using hr
    obtain ⟨hviolation, hstate⟩ := runCall_of_protocolViolation hcall
    refine ⟨(exchange op ps n tmo s.line).2, ?_, ?_⟩
    · rw [exec_exchange, hviolation]
    · rw [hstate, hcall]
  · by_cases hs : s.sessionState = .awaitingWakeup ∨ s.sessionState = .busy
    · rw [exec_initSession_refused hs] at hx
      cases hx
      cases hr
    obtain ⟨hawaiting, hbusy⟩ := not_or.mp hs
    obtain ⟨hhigh, hpulses⟩ := attempts_resetSequence_line s.params (1 + wakeupRetries) s.line
    rcases ha : attempts s.params (1 + wakeupRetries) (resetSequence s.line) with ⟨r, l⟩
    rw [exec_initSession_of_attempts hawaiting hbusy ha] at hx
    cases hx
    cases r with
    | some v => cases hr
    | none =>
      rw [ha] at hhigh hpulses
      exact ⟨rfl, hpulses, hhigh⟩

end Sys2Proof.Machine

/-! ### What an instruction can do to each part of the state (42_session R129, 43_tracker R170) -/

namespace Sys2Proof.Machine

/-- What an instruction can do to the session's state and latch (R129, R197): nothing, one of the two ends of
`INITIALIZE`, or the violation of a call. -/
def SessionMove (i : Instr) (s t : State) : Prop :=
  (t.sessionState = s.sessionState ∧ t.faultKind = s.faultKind) ∨
  (i = .initSession ∧ s.sessionState ≠ .busy ∧ s.sessionState ≠ .awaitingWakeup ∧
    ((t.sessionState = .ready ∧ t.faultKind = none) ∨ (t.sessionState = .faulted ∧ t.faultKind = some .initFailed))) ∨
  (i.isCall = true ∧ s.sessionState = .ready ∧ t.sessionState = .faulted ∧
    ∃ k, t.faultKind = some k ∧ k.errorClass = .protocolViolation)

/-- What an instruction can do to the state beside Transport's part and the result port. -/
structure Moves (i : Instr) (s t : State) : Prop where
  params : t.params = s.params
  script : t.script = s.script
  session : SessionMove i s t
  tracker : t.tracker = s.tracker ∨ i.stepsTracker = true ∧
    ∃ raw, isRawResult raw = true ∧ t.tracker = (trackerStep s.params.threshold raw s.tracker).2

/-- An instruction that writes Transport's part and the result port only. -/
theorem Moves.of_line (i : Instr) (s : State) (l : Line) (r : Option OpResult) :
    Moves i s { s with line := l, result := r } := ⟨rfl, rfl, .inl ⟨rfl, rfl⟩, .inl rfl⟩

/-- A result delivered is part of no clause. -/
theorem Moves.deliver {i : Instr} {s t : State} (h : Moves i s t) (r : OpResult) : Moves i s (t.deliver r) :=
  ⟨h.params, h.script, h.session, h.tracker⟩

theorem runInitialize_moves (s : State) : Moves .initSession s (runInitialize s).2 := by
  rcases runInitialize_spec s with ⟨-, h⟩ | ⟨hs, l, -, ⟨v, h⟩ | h⟩ <;> rw [h]
  · exact .of_line _ s s.line s.result
  all_goals
    obtain ⟨hawaiting, hbusy⟩ := not_or.mp hs
    refine ⟨rfl, rfl, .inr (.inl ⟨rfl, hbusy, hawaiting, ?_⟩), .inl rfl⟩
  · exact .inl ⟨rfl, rfl⟩
  · exact .inr ⟨rfl, rfl⟩

theorem runCall_moves {i : Instr} (hi : i.isCall = true) (op : Byte) (ps : Bytes) (n tmo : Nat) (s : State) :
    Moves i s (runCall op ps n tmo s).2 := by
  rcases runCall_spec op ps n tmo s with ⟨h, -, -⟩ | ⟨hready, l, -, h | ⟨k, hk, -, h⟩⟩ <;> rw [h]
  · exact .of_line _ s s.line s.result
  · exact .of_line _ s l s.result
  · exact ⟨rfl, rfl, .inr (.inr ⟨hi, hready, rfl, k, rfl, hk⟩), .inl rfl⟩

/-- A poll is a call followed by a tracker step on a raw poll result (R175). -/
theorem runPoll_moves (s : State) : Moves .poll s (runPoll s).2 := by
  obtain ⟨hparams, hscript, hsession, -⟩ : Moves .poll s (runReadTarget s).2 := runCall_moves rfl _ _ _ _ s
  obtain ⟨htracker, -⟩ : (runReadTarget s).2.tracker = s.tracker ∧ _ := runCall_frame _ _ _ _ s
  have hstep : (runPoll s).2.tracker =
      (trackerStep (runReadTarget s).2.params.threshold (runReadTarget s).1.1 (runReadTarget s).2.tracker).2 := rfl
  rw [hparams, htracker] at hstep
  exact ⟨hparams, hscript, hsession, .inr ⟨rfl, _, runReadTarget_isRaw s, hstep⟩⟩

/-- A tracker step works on a raw poll result, the operand or one drawn in its place (R169, R170). -/
theorem execTrackerStep_moves (raw : Option Bytes) (s : State) :
    Moves (.trackerStep raw) s (stepTracker (s.drawRaw raw).1 (s.drawRaw raw).2) := by
  obtain ⟨k, hk⟩ := s.drawRaw_frame raw
  have hraw := s.drawRaw_isRaw raw
  rw [hk]
  exact ⟨rfl, rfl, .inl ⟨rfl, rfl⟩, .inr ⟨rfl, _, hraw, rfl⟩⟩

/-- Every instruction answers a next state, and this is all it can do beside Transport's part (R129, R170, R190). -/
theorem exec_moves (i : Instr) (s : State) : ∃ t, exec i s = .next t ∧ Moves i s t := by
  cases i with
  | initSession => exact ⟨_, rfl, (runInitialize_moves s).deliver _⟩
  | call op ps n tmo => exact ⟨_, rfl, (runCall_moves rfl op ps n tmo s).deliver _⟩
  | getFirmwareVersion => exact ⟨_, rfl, (runCall_moves rfl opFirmware [] _ _ s).deliver _⟩
  | readTarget => exact ⟨_, rfl, (runCall_moves rfl opListTarget _ _ _ s).deliver _⟩
  | poll => exact ⟨_, rfl, (runPoll_moves s).deliver _⟩
  | trackerStep raw => exact ⟨_, rfl, execTrackerStep_moves raw s⟩
  | _ => exact ⟨_, rfl, .of_line _ s _ _⟩

theorem moves_of_exec {i : Instr} {s t : State} (h : exec i s = .next t) : Moves i s t := by
  obtain ⟨t', h', hm⟩ := exec_moves i s
  cases h.symm.trans h'
  exact hm

/-- Settles O12: the clause of `exec_moves` on the session. -/
theorem sessionTransitions : Obligations.SessionTransitions := fun _ _ _ h => (moves_of_exec h).session

/-- Settles O11: an answer, and the two parts of the state that `exec_moves` says are kept. -/
theorem everyOperationReturns : Obligations.EveryOperationReturns := fun i s =>
  let ⟨t, h, hm⟩ := exec_moves i s
  ⟨t, h, hm.params, hm.script⟩

/-- Settles O17: `exec_moves` lets the tracker change only by an operation that steps it. -/
theorem trackerOwned : Obligations.TrackerOwned := fun i s t hi h => by
  obtain htracker | ⟨hsteps, -⟩ := (moves_of_exec h).tracker
  · exact htracker
  · simp [hi] at hsteps

end Sys2Proof.Machine

/-! ### What every step keeps (10_state R11 to R21, 60_exceptions R200) -/

namespace Sys2Proof.Machine

/-- An instruction that starts with the reset line high ends with it high (R18). -/
theorem exec_keeps_high {i : Instr} {s t : State} (hs : s.line.rstLine = .high) (h : exec i s = .next t) :
    t.line.rstLine = .high := by
  rcases exec_line i s t h with ⟨-, hl⟩ | ⟨-, -, hl⟩ | ⟨-, -, hl⟩
  · rw [hl, resetSequence_eq]
  · rw [hl.rstLine, resetSequence_eq]
  · rw [hl.rstLine, hs]

/-- The session's three clauses of the invariant: state, latch and kind (R11, R12). -/
theorem SessionMove.keeps_latch {i : Instr} {s t : State} (hs : s.Inv) (h : SessionMove i s t) :
    (t.sessionState = .uninitialized ∨ t.sessionState = .ready ∨ t.sessionState = .faulted) ∧
      (t.faultKind.isSome = true ↔ t.sessionState = .faulted) ∧
      ∀ k, t.faultKind = some k → k.errorClass = .protocolViolation ∨ k = .initFailed := by
  obtain ⟨hses, hkind⟩ | ⟨-, -, -, ⟨hses, hkind⟩ | ⟨hses, hkind⟩⟩ | ⟨-, -, hses, k, hkind, hk⟩ := h <;> rw [hses, hkind]
  · exact ⟨hs.settled, hs.latched, hs.kinds⟩
  · simp
  · simp
  · simp [hk]

theorem exec_keeps_inv {i : Instr} {s t : State} (hs : s.Inv) (h : exec i s = .next t) : t.Inv := by
  obtain ⟨hparams, -, hsession, htracker⟩ := moves_of_exec h
  obtain ⟨hsettled, hlatched, hkinds⟩ := hsession.keeps_latch hs
  refine ⟨hsettled, hlatched, hkinds, exec_keeps_high hs.restsHigh h, fun u hu => ?_, hparams ▸ hs.paramsValid⟩
  obtain ht | ⟨-, raw, hraw, ht⟩ := htracker <;> rw [ht] at hu
  · exact hs.uidValid u hu
  · obtain rfl | hold := trackerStep_presence hu
    · exact hraw
    · exact hs.uidValid u hold

/-- The invariant speaks of no move to come, no byte in flight and no result. -/
theorem State.Inv.of_line {s : State} (hs : s.Inv) {l : Line} (hl : l.rstLine = s.line.rstLine) (rest : List Move)
    (r : Option OpResult) : State.Inv { s with line := l, script := rest, result := r } :=
  ⟨hs.settled, hs.latched, hs.kinds, hl.trans hs.restsHigh, hs.uidValid, hs.paramsValid⟩

/-- Settles O9: an instruction keeps the invariant by `exec_keeps_inv`; of the other moves only new parameters touch a
clause of it, and those are valid. -/
theorem stepKeepsInv : Obligations.StepKeepsInv := by
  intro s t hs h
  rcases step_cases h with ⟨-, rfl⟩ | ⟨c, rest, i, -, -, hx⟩ | ⟨c, rest, sel, -, -, rfl⟩ | ⟨bs, rest, -, rfl⟩ |
    ⟨p, rest, -, hp, rfl⟩
  · exact hs
  · exact exec_keeps_inv (hs.of_line rfl rest s.result) hx
  · exact hs.of_line rfl rest _
  · exact hs.of_line (l := s.line.receive bs) rfl rest s.result
  · exact { hs.of_line rfl rest s.result with paramsValid := hp }

/-- An instruction keeps the bound of the miss counter (R21). -/
theorem exec_keeps_bound {i : Instr} {s t : State} (hp : s.params.Valid) (hb : s.tracker.Bounded s.params.threshold)
    (h : exec i s = .next t) : t.tracker.Bounded t.params.threshold := by
  obtain ⟨hparams, -, -, htracker⟩ := moves_of_exec h
  obtain ⟨hth, -⟩ := hp
  rw [hparams]
  obtain ht | ⟨-, raw, -, ht⟩ := htracker <;> rw [ht]
  · exact hb
  · exact trackerStep_bounded hth hb raw

/-- Settles O10: an instruction keeps the bound by `exec_keeps_bound`; new parameters are excluded by hypothesis, and
the other moves touch neither the tracker nor the threshold. -/
theorem stepKeepsMissBound : Obligations.StepKeepsMissBound := by
  intro s t hp hb hconf h
  rcases step_cases h with ⟨-, rfl⟩ | ⟨c, rest, i, -, -, hx⟩ | ⟨c, rest, sel, -, -, rfl⟩ | ⟨bs, rest, -, rfl⟩ |
    ⟨p, rest, hs, -, rfl⟩
  · exact hb
  · exact exec_keeps_bound (s := s.withScript rest) hp hb hx
  · exact hb
  · exact hb
  · exact absurd hs (hconf p rest)

/-- Only `INITIALIZE` takes the session out of `Faulted` or changes the latch there (R200). -/
theorem exec_keeps_faulted {i : Instr} {s t : State} (hs : s.sessionState = .faulted) (hi : i ≠ .initSession)
    (h : exec i s = .next t) : t.sessionState = .faulted ∧ t.faultKind = s.faultKind := by
  obtain ⟨hses, hkind⟩ | ⟨hinit, -⟩ | ⟨-, hready, -⟩ := (moves_of_exec h).session
  · exact ⟨hses.trans hs, hkind⟩
  · exact absurd hinit hi
  · simp [hs] at hready

/-- A poll outside `Ready` leaves the session and Transport alone and is a miss to the tracker (R175 corner case a). -/
theorem exec_poll_notReady {s : State} (hs : s.sessionState ≠ .ready) :
    exec .poll s = .next { s with
      tracker := (trackerStep s.params.threshold none s.tracker).2,
      result := some (.polled (trackerStep s.params.threshold none s.tracker).1 .statusRefused) } := by
  have hread : runReadTarget s = ((none, .statusRefused), s) := by
    simp only [runReadTarget, runCall_refused hs, targetOf]
  exact exec_poll hread

/-- Settles O14: for steps, `exec_keeps_faulted`; for the operations that call, `runCall_refused`. -/
theorem faultedUntilInitialize : Obligations.FaultedUntilInitialize := by
  refine ⟨fun s t hs hinit h => ?_, fun s hs => ?_⟩
  · rcases step_cases h with ⟨-, rfl⟩ | ⟨c, rest, i, hsc, hd, hx⟩ | ⟨c, rest, sel, -, -, rfl⟩ | ⟨bs, rest, -, rfl⟩ |
      ⟨p, rest, -, -, rfl⟩
    · exact ⟨hs, rfl⟩
    · exact exec_keeps_faulted (s := s.withScript rest) hs (fun hi => hinit c rest hsc (hi ▸ hd)) hx
    all_goals exact ⟨hs, rfl⟩
  · have hne : s.sessionState ≠ .ready := by simp [hs]
    refine ⟨fun op ps n tmo => ?_, ?_, ?_, _, _, exec_poll_notReady hne, rfl, rfl⟩
    · rw [exec_call, runCall_refused hne]
    · rw [exec_getFirmwareVersion, runCall_refused hne, fwResultOf]
    · rw [exec_readTarget, runCall_refused hne, targetOf]

/-- Settles O54: `exec_poll_notReady`, and the miss is the row of R170 at or below the threshold. -/
theorem pollNotReady : Obligations.PollNotReady := by
  intro s u hs hu
  rw [exec_poll_notReady hs]
  by_cases hth : s.tracker.missCnt + 1 ≥ s.params.threshold
  · rw [if_pos hth, trackerStep_remove hu hth]
  · rw [if_neg hth, trackerStep_miss hu (Nat.not_le.mp hth)]

/-- A reset sequence before some extension: one more pulse, the line high, and what was sent is kept (R18, R119). -/
theorem Line.Extends.of_resetSequence {l l' : Line} (h : (resetSequence l).Extends l') :
    (∃ sent, l'.txlog = l.txlog ++ sent) ∧ l'.rstLine = .high ∧ l'.rstPulses = l.rstPulses + 1 :=
  ⟨h.txlog, h.rstLine, h.rstPulses⟩

/-- Settles O16: `exec_line` lists who runs a reset sequence, once. -/
theorem resetPulses : Obligations.ResetPulses := by
  intro i s t h
  rcases exec_line i s t h with ⟨hi, hl⟩ | ⟨hi, hs, hl⟩ | ⟨hi, hinit, hl⟩
  · rw [if_pos (.inl hi), hl, resetSequence_eq]
  · obtain ⟨-, -, hpulses⟩ := hl.of_resetSequence
    rw [if_pos (.inr ⟨hi, hs⟩), hpulses]
  · rw [if_neg (not_or.mpr ⟨hi, hinit⟩), hl.rstPulses, Nat.add_zero]

/-- What an instruction does to Transport's part is an extension, after one reset sequence or none. -/
theorem exec_extends {i : Instr} {s t : State} (h : exec i s = .next t) :
    s.line.Extends t.line ∨ (resetSequence s.line).Extends t.line := by
  rcases exec_line i s t h with ⟨-, hl⟩ | ⟨-, -, hl⟩ | ⟨-, -, hl⟩
  · exact .inr (hl ▸ Line.Extends.refl _)
  · exact .inr hl
  · exact .inl hl

/-- Settles O15: of an instruction, `exec_extends` and the parameters kept by `exec_moves`; the other moves leave
`txlog` and the reset line alone. -/
theorem stepFrame : Obligations.StepFrame := by
  intro s t h
  rcases step_cases h with ⟨-, rfl⟩ | ⟨c, rest, i, -, -, hx⟩ | ⟨c, rest, sel, -, -, rfl⟩ | ⟨bs, rest, -, rfl⟩ |
    ⟨p, rest, hs, -, rfl⟩
  case inr.inl =>
    have hparams : t.params = s.params := (moves_of_exec hx).params
    obtain ⟨hsent, hrst, hpulses⟩ | hl := exec_extends hx
    · exact ⟨hsent, fun _ => hparams, hrst.trans, .inl hpulses⟩
    · obtain ⟨hsent, hrst, hpulses⟩ := hl.of_resetSequence
      exact ⟨hsent, fun _ => hparams, fun _ => hrst, .inr hpulses⟩
  case inr.inr.inr.inr => exact ⟨⟨[], (List.append_nil _).symm⟩, fun hconf => absurd hs (hconf p rest), id, .inl rfl⟩
  all_goals exact ⟨⟨[], (List.append_nil _).symm⟩, fun _ => rfl, id, .inl rfl⟩

end Sys2Proof.Machine

/-! ### Durations have no effect (70_reset_and_hazards R236) -/

namespace Sys2Proof.Machine

/-- Two configurations that differ in durations, `RX_DEPTH` and the layout flag only: all that an operation reads is the
same. -/
structure SameButDurations (p q : Params) : Prop where
  baudRateCode : q.baudRateCode = p.baudRateCode
  uidLenOffset : q.uidLenOffset = p.uidLenOffset
  threshold : q.threshold = p.threshold
  wake55Count : q.wake55Count = p.wake55Count
  wake00Count : q.wake00Count = p.wake00Count

/-- The same state under other parameters. -/
def State.withParams (s : State) (q : Params) : State := { s with params := q }

/-- The timeout of an exchange reaches `wait_for_data` only, which ignores it (R116, R236). -/
theorem exchange_timeout (op : Byte) (ps : Bytes) (n tmo tmo' : Nat) (l : Line) :
    exchange op ps n tmo l = exchange op ps n tmo' l := rfl

theorem runCall_timeout (op : Byte) (ps : Bytes) (n tmo tmo' : Nat) (s : State) :
    runCall op ps n tmo s = runCall op ps n tmo' s := rfl

section
variable {p q : Params} {s : State}

theorem wakeup_sameButDurations (h : SameButDurations p q) (l : Line) : wakeup q l = wakeup p l := by
  simp only [wakeup, wakeBytesOf, samConfiguration, h.wake55Count, h.wake00Count,
    exchange_timeout _ _ _ q.cmdTimeout p.cmdTimeout]

theorem attempts_sameButDurations (h : SameButDurations p q) (k : Nat) (l : Line) :
    attempts q k l = attempts p k l := by
  induction k generalizing l with
  | zero => rfl
  | succ k ih =>
    simp only [attempts, wakeup_sameButDurations h, exchange_timeout _ _ _ q.cmdTimeout p.cmdTimeout, ih]

/-- A call under other durations: the same result, the same state but for them. -/
theorem runCall_withParams (h : SameButDurations s.params q) (op : Byte) (ps : Bytes) (n tmo : Nat) :
    runCall op ps n tmo (s.withParams q) = ((runCall op ps n tmo s).1, (runCall op ps n tmo s).2.withParams q) := by
  by_cases hs : s.sessionState = .ready
  · have hs' : (s.withParams q).sessionState = .ready := hs
    rw [runCall_ready hs, runCall_ready hs']
    simp only [State.withParams, wakeup_sameButDurations h]
    cases (exchange op ps n tmo s.line).1 <;> rfl
  · have hs' : (s.withParams q).sessionState ≠ .ready := hs
    rw [runCall_refused hs, runCall_refused hs']

/-- `INITIALIZE` under other durations: the same result, the same state but for them. -/
theorem exec_initSession_withParams {t : State} (h : SameButDurations s.params q) (hx : exec .initSession s = .next t) :
    exec .initSession (s.withParams q) = .next (t.withParams q) := by
  by_cases hs : s.sessionState = .awaitingWakeup ∨ s.sessionState = .busy
  · rw [exec_initSession_refused hs] at hx
    cases hx
    exact exec_initSession_refused (s := s.withParams q) hs
  · obtain ⟨hawaiting, hbusy⟩ := not_or.mp hs
    rcases ha : attempts s.params 2 (resetSequence s.line) with ⟨r, l⟩
    rw [exec_initSession_of_attempts hawaiting hbusy ha] at hx
    cases hx
    rw [exec_initSession_of_attempts (s := s.withParams q) hawaiting hbusy
      ((attempts_sameButDurations h 2 (resetSequence s.line)).trans ha)]
    cases r <;> rfl

theorem runReadTarget_withParams (h : SameButDurations s.params q) :
    runReadTarget (s.withParams q) = ((runReadTarget s).1, (runReadTarget s).2.withParams q) := by
  have hcall := runCall_withParams h opListTarget (listTargetParams s.params.baudRateCode) targetResultLen
    s.params.shortTimeout
  simp only [runReadTarget, State.withParams, h.baudRateCode, h.uidLenOffset] at hcall ⊢
  rw [runCall_timeout _ _ _ _ s.params.shortTimeout, hcall]

theorem exec_poll_withParams {t : State} (h : SameButDurations s.params q) (hx : exec .poll s = .next t) :
    exec .poll (s.withParams q) = .next (t.withParams q) := by
  have hread := runReadTarget_withParams h
  obtain ⟨-, hparams, -⟩ : _ ∧ (runReadTarget s).2.params = s.params ∧ _ := runCall_frame _ _ _ _ s
  have hth : (runReadTarget s).2.params.threshold = q.threshold := by rw [hparams, h.threshold]
  cases hx
  rw [exec_poll hread]
  simp only [runPoll, hth]
  rfl

theorem stepTracker_withParams (h : SameButDurations s.params q) (raw : Option Bytes) :
    stepTracker raw (s.withParams q) = (stepTracker raw s).withParams q := by
  simp only [stepTracker, State.withParams, h.threshold]
  rfl

theorem State.drawRaw_withParams (s : State) (q : Params) (raw : Option Bytes) :
    (s.withParams q).drawRaw raw = ((s.drawRaw raw).1, (s.drawRaw raw).2.withParams q) := by
  unfold State.drawRaw
  split <;> rfl

theorem exec_trackerStep_withParams {t : State} {raw : Option Bytes} (h : SameButDurations s.params q)
    (hx : exec (.trackerStep raw) s = .next t) : exec (.trackerStep raw) (s.withParams q) = .next (t.withParams q) := by
  obtain ⟨k, hk⟩ := s.drawRaw_frame raw
  have hdrawn : SameButDurations (s.drawRaw raw).2.params q := by rw [hk]; exact h
  cases hx
  simp only [exec, execTrackerStep, State.drawRaw_withParams]
  rw [stepTracker_withParams hdrawn]

/-- An instruction does the same under other durations. -/
theorem exec_withParams {i : Instr} {t : State} (h : SameButDurations s.params q) (hx : exec i s = .next t) :
    exec i (s.withParams q) = .next (t.withParams q) := by
  have hcall := runCall_withParams h
  cases i with
  | initSession => exact exec_initSession_withParams h hx
  | poll => exact exec_poll_withParams h hx
  | trackerStep raw => exact exec_trackerStep_withParams h hx
  | call op ps n tmo =>
    cases hx
    rw [exec_call, hcall]
    rfl
  | getFirmwareVersion =>
    cases hx
    rw [exec_getFirmwareVersion, runCall_timeout _ _ _ _ s.params.cmdTimeout, hcall]
    rfl
  | readTarget =>
    cases hx
    simp only [exec, execReadTarget, runReadTarget_withParams h]
    rfl
  | wakeup =>
    cases hx
    have hline : wakeup (s.withParams q).params (s.withParams q).line = wakeup s.params s.line :=
      wakeup_sameButDurations h _
    rw [exec_wakeup, hline]
    rfl
  | _ => cases hx; rfl

end

/-- Settles O18: the seven durations and `RX_DEPTH` are none of the parameters `SameButDurations` asks to be equal, so
`exec_withParams` applies; the timeout operands are those of `runCall_timeout` and `exchange_timeout`. -/
theorem durationsIrrelevant : Obligations.DurationsIrrelevant :=
  ⟨fun _ _ _ _ _ _ _ _ _ _ _ h => exec_withParams ⟨rfl, rfl, rfl, rfl, rfl⟩ h, fun _ _ _ _ _ _ => ⟨rfl, rfl, rfl⟩⟩

end Sys2Proof.Machine

/-! ### Decode and encode (30_encoding R62 to R72) -/

namespace Sys2Proof.Machine

/-- The operand checks of the three wire patterns that have any (R62, R63, R65; log entry 16). -/
theorem wellFormed_frameCommand (op : Byte) (ps : Bytes) :
    (Instr.frameCommand op ps).WellFormed ↔ ps.length ≤ 252 ∧ isNamedCommand op ps = false := by
  simp only [Instr.WellFormed, Instr.wf, Bool.and_eq_true, decide_eq_true_eq, Bool.not_eq_true']
  rfl

theorem wellFormed_frameResponse (z : Nat) (echo : Byte) (results trail : Bytes) :
    (Instr.frameResponse z echo results trail).WellFormed ↔ 1 ≤ z ∧ results.length ≤ 253 := by
  simp [Instr.WellFormed, Instr.wf]

theorem wellFormed_wakeBytes (n55 n00 : Nat) : (Instr.wakeBytes n55 n00).WellFormed ↔ 1 ≤ n55 ∧ 1 ≤ n00 := by
  simp [Instr.WellFormed, Instr.wf]

/-- The named commands are three frames of R62: R67's, R68's, and R69's for each value of its free byte. -/
theorem isNamedCommand_iff (op : Byte) (ps : Bytes) :
    isNamedCommand op ps = true ↔ (op = opFirmware ∧ ps = []) ∨ (op = opSam ∧ ps = samParams) ∨
      (op = opListTarget ∧ ∃ bb, ps = listTargetParams bb) := by
  have hlist : (ps.length = 2 ∧ ps.head? = some maxTargets) ↔ ∃ bb, ps = listTargetParams bb := by
    constructor
    · rintro ⟨hlen, hhead⟩
      obtain ⟨x, bb, rfl⟩ := List.length_eq_two.mp hlen
      cases hhead
      exact ⟨bb, rfl⟩
    · rintro ⟨bb, rfl⟩
      exact ⟨rfl, rfl⟩
  simp only [isNamedCommand, Bool.or_eq_true, Bool.and_eq_true, beq_iff_eq, and_assoc, or_assoc, hlist]

/-- The byte of R69's frame that the decoder takes for its free one is it. -/
theorem listTarget_freeByte (bb : Byte) : (commandFrame opListTarget (listTargetParams bb)).getD 8 zeroByte = bb := rfl

/-- The frames of the named commands are read as their own rows (log entry 16). -/
theorem decodeWire_firmware : decodeWire (commandFrame opFirmware []) = .ok .cmdGetFirmwareVersion := by decide

theorem decodeWire_sam : decodeWire (commandFrame opSam samParams) = .ok .cmdSamConfiguration := by decide

theorem decodeWire_listTarget (bb : Byte) :
    decodeWire (commandFrame opListTarget (listTargetParams bb)) = .ok (.cmdInListPassiveTarget bb) := by
  have hne (op : Byte) (ps : Bytes) (h : op ≠ opListTarget) :
      commandFrame opListTarget (listTargetParams bb) ≠ commandFrame op ps := fun e => h (commandFrame_inj e).1.symm
  rw [decodeWire, if_neg (ack_ne_commandFrame _ _).symm, if_neg (hne _ _ (by decide)), if_neg (hne _ _ (by decide)),
    listTarget_freeByte, if_pos rfl]

/-- The reader of the layouts with operands: a command frame, else a preamble, else a response frame. -/
def parsePattern (bs : Bytes) : Option Instr := (parseCommand bs).or ((parseWake bs).or (parseResponse bs))

/-- Wire bytes that are neither the ACK nor the frame of a named command are what the three parsers make of them. -/
theorem decodeWire_of_unnamed {bs : Bytes} (hack : bs ≠ ackBytes)
    (hnamed : ∀ op ps, bs = commandFrame op ps → isNamedCommand op ps = false) :
    decodeWire bs = (parsePattern bs).elim (.error .notAWirePattern) .ok := by
  have hne {op : Byte} {ps : Bytes} (h : isNamedCommand op ps = true) : bs ≠ commandFrame op ps := fun e => by
    simp [hnamed op ps e] at h
  rw [decodeWire, if_neg hack, if_neg (hne (by decide)), if_neg (hne (by decide)), if_neg (hne rfl), parsePattern]
  cases parseCommand bs with
  | some i => rfl
  | none =>
    cases parseWake bs with
    | some i => rfl
    | none => cases parseResponse bs <;> rfl

/-- An unnamed command frame is read as itself. -/
theorem decodeWire_commandFrame {op : Byte} {ps : Bytes} (hp : ps.length ≤ 252) (hn : isNamedCommand op ps = false) :
    decodeWire (commandFrame op ps) = .ok (.frameCommand op ps) := by
  have hunnamed (op' : Byte) (ps' : Bytes) (e : commandFrame op ps = commandFrame op' ps') :
      isNamedCommand op' ps' = false := by
    obtain ⟨rfl, rfl⟩ := commandFrame_inj e
    exact hn
  rw [decodeWire_of_unnamed (ack_ne_commandFrame _ _).symm hunnamed, parsePattern, parseCommand_commandFrame op ps hp]
  rfl

theorem decodeWire_responseFrame {z : Nat} (hz : 1 ≤ z) (echo : Byte) {results : Bytes} (hr : results.length ≤ 253)
    (trail : Bytes) : decodeWire (responseFrame z echo results trail) = .ok (.frameResponse z echo results trail) := by
  rw [decodeWire_of_unnamed (responseFrame_ne_ack hz) fun op ps e => absurd e (responseFrame_ne_command op ps),
    parsePattern, parseCommand_responseFrame, parseWake_responseFrame, parseResponse_responseFrame z echo _ _ hz hr]
  rfl

/-- A preamble begins with `0x55`, a command frame and the ACK with `0x00`. -/
theorem wakePattern_head {n55 : Nat} (h : 1 ≤ n55) (n00 : Nat) : (wakePattern n55 n00).head? = some 0x55#8 := by
  obtain ⟨k, rfl⟩ := Nat.exists_eq_add_of_le' h
  rfl

theorem wakePattern_ne_command {n55 : Nat} (h : 1 ≤ n55) (n00 : Nat) (op : Byte) (ps : Bytes) :
    wakePattern n55 n00 ≠ commandFrame op ps := fun e => by
  simpa [commandFrame_eq, wakePattern_head h] using congrArg List.head? e

theorem decodeWire_wakePattern {n55 n00 : Nat} (h55 : 1 ≤ n55) (h00 : 1 ≤ n00) :
    decodeWire (wakePattern n55 n00) = .ok (.wakeBytes n55 n00) := by
  have hack : wakePattern n55 n00 ≠ ackBytes := fun e => by
    simpa [ackBytes, wakePattern_head h55] using congrArg List.head? e
  have hcommand : parseCommand (wakePattern n55 n00) = none :=
    if_neg fun ⟨_, e⟩ => wakePattern_ne_command h55 n00 _ _ e
  rw [decodeWire_of_unnamed hack fun op ps e => absurd e (wakePattern_ne_command h55 n00 op ps), parsePattern, hcommand,
    parseWake_wakePattern n55 n00 h55 h00]
  rfl

/-- Settles O7: a request carries every operand in a lane of its own; a wire pattern is read back by the lemma on its
layout. -/
theorem decodeEncode : Obligations.DecodeEncode := by
  intro i hwf
  cases i with
  | frameAck => rfl
  | cmdGetFirmwareVersion => exact decodeWire_firmware
  | cmdSamConfiguration => exact decodeWire_sam
  | cmdInListPassiveTarget bb => exact decodeWire_listTarget bb
  | frameCommand op ps =>
    obtain ⟨hlen, hnamed⟩ := (wellFormed_frameCommand op ps).mp hwf
    exact decodeWire_commandFrame hlen hnamed
  | frameResponse z echo results trail =>
    obtain ⟨hz, hlen⟩ := (wellFormed_frameResponse z echo results trail).mp hwf
    exact decodeWire_responseFrame hz echo hlen trail
  | wakeBytes n55 n00 =>
    obtain ⟨h55, h00⟩ := (wellFormed_wakeBytes n55 n00).mp hwf
    exact decodeWire_wakePattern h55 h00
  | _ => rfl

/-- What a parser reads is its own layout of the bytes it was given. -/
theorem parseCommand_exact {bs : Bytes} {i : Instr} (h : parseCommand bs = some i) :
    ∃ op ps, i = .frameCommand op ps ∧ ps.length ≤ 252 ∧ bs = commandFrame op ps := by
  obtain ⟨⟨hlen, hbs⟩, hi⟩ := Option.ite_none_right_eq_some.mp h
  exact ⟨_, _, (Option.some.inj hi).symm, hlen, hbs⟩

theorem parseWake_exact {bs : Bytes} {i : Instr} (h : parseWake bs = some i) :
    ∃ n55 n00, i = .wakeBytes n55 n00 ∧ 1 ≤ n55 ∧ 1 ≤ n00 ∧ bs = wakePattern n55 n00 := by
  obtain ⟨⟨h55, h00, hbs⟩, hi⟩ := Option.ite_none_right_eq_some.mp h
  exact ⟨_, _, (Option.some.inj hi).symm, h55, h00, hbs⟩

theorem parseResponse_exact {bs : Bytes} {i : Instr} (h : parseResponse bs = some i) :
    ∃ z echo results trail, i = .frameResponse z echo results trail ∧ 1 ≤ z ∧ results.length ≤ 253 ∧
      bs = responseFrame z echo results trail := by
  obtain ⟨⟨hz, hbs⟩, hi⟩ := Option.ite_none_right_eq_some.mp h
  refine ⟨_, _, _, _, (Option.some.inj hi).symm, hz, ?_, hbs⟩
  have hlen : (bs.getD (leadingCount zeroByte bs + 1) zeroByte).toNat < 256 := BitVec.isLt _
  rw [List.length_take]
  omega

theorem parsePattern_exact {bs : Bytes} {i : Instr}
    (hnamed : ∀ op ps, bs = commandFrame op ps → isNamedCommand op ps = false) (h : parsePattern bs = some i) :
    i.WellFormed ∧ encode i = .wire bs := by
  obtain hcommand | ⟨-, h⟩ := Option.or_eq_some_iff.mp h
  · obtain ⟨op, ps, rfl, hlen, rfl⟩ := parseCommand_exact hcommand
    exact ⟨(wellFormed_frameCommand op ps).mpr ⟨hlen, hnamed op ps rfl⟩, rfl⟩
  obtain hwake | ⟨-, hresponse⟩ := Option.or_eq_some_iff.mp h
  · obtain ⟨n55, n00, rfl, h55, h00, rfl⟩ := parseWake_exact hwake
    exact ⟨(wellFormed_wakeBytes n55 n00).mpr ⟨h55, h00⟩, rfl⟩
  · obtain ⟨z, echo, results, trail, rfl, hz, hlen, rfl⟩ := parseResponse_exact hresponse
    exact ⟨(wellFormed_frameResponse z echo results trail).mpr ⟨hz, hlen⟩, rfl⟩

/-- The frame of a named command decodes to that command and to nothing else. -/
theorem decodeWire_named_exact {op : Byte} {ps : Bytes} {i : Instr} (hnamed : isNamedCommand op ps = true)
    (h : decodeWire (commandFrame op ps) = .ok i) : i.WellFormed ∧ encode i = .wire (commandFrame op ps) := by
  obtain ⟨rfl, rfl⟩ | ⟨rfl, rfl⟩ | ⟨rfl, bb, rfl⟩ := (isNamedCommand_iff op ps).mp hnamed
  · cases decodeWire_firmware.symm.trans h
    exact ⟨rfl, rfl⟩
  · cases decodeWire_sam.symm.trans h
    exact ⟨rfl, rfl⟩
  · cases (decodeWire_listTarget bb).symm.trans h
    exact ⟨rfl, rfl⟩

/-- Settles O8: the ACK and the frames of the named commands have one reading each; all other bytes are what a parser
reads, which is exact. -/
theorem wireDecodeExact : Obligations.WireDecodeExact := by
  intro bs i h
  replace h : decodeWire bs = .ok i := h
  by_cases hack : bs = ackBytes
  · subst hack
    cases h
    exact ⟨rfl, rfl⟩
  by_cases hcommand : ∃ op ps, bs = commandFrame op ps ∧ isNamedCommand op ps = true
  · obtain ⟨op, ps, rfl, hnamed⟩ := hcommand
    exact decodeWire_named_exact hnamed h
  have hunnamed (op : Byte) (ps : Bytes) (e : bs = commandFrame op ps) : isNamedCommand op ps = false :=
    Bool.eq_false_iff.mpr fun hn => hcommand ⟨op, ps, e, hn⟩
  rw [decodeWire_of_unnamed hack hunnamed] at h
  cases hparse : parsePattern bs with rw [hparse] at h
  | none => cases h
  | some j =>
    cases h
    exact parsePattern_exact hunnamed hparse

end Sys2Proof.Machine

/-! ### Steps: the moves, the requests and the refusals (30_encoding R70, R72, 60_exceptions R190) -/

namespace Sys2Proof.Machine

/-- A step is the next move: code that is an instruction, code that is none, bytes arriving, or new parameters. -/
theorem step_idle {s : State} (h : s.script = []) : step s = .next s := by simp only [step, h, State.idle]

theorem step_present {s : State} {c : Code} {rest : List Move} {i : Instr} (h : s.script = .present c :: rest)
    (hd : decode c = .ok i) : step s = exec i (s.withScript rest) := by simp only [step, h, hd]

theorem step_undecoded {s : State} {c : Code} {rest : List Move} {e : DecodeError} (h : s.script = .present c :: rest)
    (hd : decode c = .error e) : step s = (s.withScript rest).undecoded e := by simp only [step, h, hd]

theorem step_arrive {s : State} {bs : Bytes} {rest : List Move} (h : s.script = .arrive bs :: rest) :
    step s = .next ((s.withScript rest).arrive bs) := by simp only [step, h]

theorem step_configure {s : State} {p : Params} {rest : List Move} (h : s.script = .configure p :: rest) :
    step s = if p.Valid then .next { s.withScript rest with params := p } else .refused .invalidParameters := by
  simp only [step, h, State.configure]

/-- Settles O3: `step_present`. -/
theorem stepRunsDecoded : Obligations.StepRunsDecoded := fun _ _ _ _ => step_present

/-- Settles O4: one law of `step` for each of the three moves; of new parameters, the valid and the excluded. -/
theorem stepOtherMoves : Obligations.StepOtherMoves := fun _ =>
  ⟨step_idle, fun _ _ => step_arrive, fun _ _ h hp => (step_configure h).trans (if_pos hp),
    fun _ _ h hp => (step_configure h).trans (if_neg hp)⟩

/-- A request with an `op_sel` of the table selects an operation, one the host may request exactly for the ten codes so
marked; a request with any other selects none (R70, R72). -/
theorem decodeRequest_cases (r : Request) :
    (∃ i, decodeRequest r = .ok i ∧ r.opSel.toNat ∈ [1, 2, 3, 4, 5, 6, 7, 8, 9, 10, 11, 12, 13, 14, 16, 17, 18] ∧
      (i.hostVisible = true ↔ r.opSel.toNat ∈ [1, 2, 3, 8, 11, 12, 14, 16, 17, 18])) ∨
    decodeRequest r = .error (.unknownOpSel r.opSel) := by
  unfold decodeRequest
  split
  case h_18 => exact .inr rfl
  all_goals
    rename_i h
    exact .inl ⟨_, rfl, by simp [h], by simp [h, Instr.hostVisible]⟩

/-- Settles O5: the codes one by one; of the other two clauses, `decodeRequest_cases`. -/
theorem opSelTable : Obligations.OpSelTable := by
  refine ⟨fun r => ?_, fun r i hd => ?_, fun s r rest hs hcode => ?_⟩
  · refine ⟨?_, ?_, ?_, ?_, ?_, ?_, ?_, ?_, ?_, ?_, ?_, ?_, ?_, ?_, ?_, ?_, ?_⟩ <;> intro h <;>
      simp only [decode, decodeRequest, h] <;> rfl
  · obtain ⟨j, hj, -, hvisible⟩ | hj := decodeRequest_cases r
    · cases hj.symm.trans hd
      exact hvisible
    · cases hj.symm.trans hd
  · obtain ⟨j, -, hmem, -⟩ | hj := decodeRequest_cases r
    · exact absurd hmem hcode
    · exact step_undecoded hs hj

/-- Settles O6: the decoder run on each of the codes. -/
theorem decodeWords : Obligations.DecodeWords := by
  refine ⟨?_, ?_, ?_, ?_, ?_, ?_, ?_, ?_⟩ <;> decide

/-- Wire bytes are an instruction or no pattern at all. -/
theorem decodeWire_total (bs : Bytes) :
    (∃ i, decodeWire bs = .ok i) ∨ decodeWire bs = .error .notAWirePattern := by
  unfold decodeWire
  split_ifs
  case neg =>
    cases parseCommand bs with
    | some i => exact .inl ⟨i, rfl⟩
    | none =>
      cases parseWake bs with
      | some i => exact .inl ⟨i, rfl⟩
      | none =>
        cases parseResponse bs with
        | some i => exact .inl ⟨i, rfl⟩
        | none => exact .inr rfl
  all_goals exact .inl ⟨_, rfl⟩

/-- Wire bytes are refused exactly when no well-formed instruction is encoded as them. -/
theorem decodeWire_error_iff (bs : Bytes) :
    decodeWire bs = .error .notAWirePattern ↔ ∀ i : Instr, i.WellFormed → encode i ≠ .wire bs := by
  constructor
  · intro h i hwf he
    have hd := decodeEncode i hwf
    rw [he] at hd
    cases h.symm.trans hd
  · intro h
    obtain ⟨i, hi⟩ | hnone := decodeWire_total bs
    · obtain ⟨hwf, he⟩ := wireDecodeExact bs i hi
      exact absurd he (h i hwf)
    · exact hnone

/-- A request always has a next state: an operation answers one, and an unknown `op_sel` is answered `Refused`. -/
theorem step_request {s : State} {r : Request} {rest : List Move} (h : s.script = .present (.request r) :: rest) :
    ∃ t, step s = .next t := by
  obtain ⟨i, hi, -⟩ | hnone := decodeRequest_cases r
  · obtain ⟨t, ht, -⟩ := exec_moves i (s.withScript rest)
    exact ⟨t, (step_present h hi).trans ht⟩
  · exact ⟨_, step_undecoded h hnone⟩

/-- Settles O60: a step by its next move; wire bytes by `decodeWire_error_iff`. -/
theorem stepRefusals : Obligations.StepRefusals := by
  refine ⟨fun s => ?_, fun s bs rest h hnone => step_undecoded h ((decodeWire_error_iff bs).mpr hnone),
    fun s p rest h hp => (step_configure h).trans (if_neg hp), fun s r rest h => step_request h⟩
  match h : s.script with
  | [] => exact .inl ⟨s, step_idle h⟩
  | .arrive bs :: rest => exact .inl ⟨_, step_arrive h⟩
  | .present (.request r) :: rest => exact .inl (step_request h)
  | .present (.wire bs) :: rest =>
    obtain ⟨i, hi⟩ | hnone := decodeWire_total bs
    · obtain ⟨t, ht, -⟩ := exec_moves i (s.withScript rest)
      exact .inl ⟨t, (step_present h hi).trans ht⟩
    · exact .inr (.inl ⟨step_undecoded h hnone, bs, rest, rfl, (decodeWire_error_iff bs).mp hnone⟩)
  | .configure p :: rest =>
    by_cases hp : p.Valid
    · exact .inl ⟨_, (step_configure h).trans (if_pos hp)⟩
    · exact .inr (.inr ⟨(step_configure h).trans (if_neg hp), p, rest, rfl, hp⟩)

end Sys2Proof.Machine

/-! ### What DECODE_RESPONSE accepts and what it rejects (40_framecodec R91, R96 to R100) -/

namespace Sys2Proof.Machine

/-- The result port tells the function's value. -/
theorem exec_decodeResponse_iff (b : Bytes) (op : Byte) (s : State) (r : Except ErrorKind Bytes) :
    exec (.decodeResponse b op) s = .next { s with result := some (.decoded r) } ↔ decodeResponse b op = r := by
  rw [exec_decodeResponse]
  refine ⟨fun h => ?_, fun h => h ▸ rfl⟩
  simpa using congrArg State.result (Host.Outcome.next.inj h)

/-- Step 4 of R96 on a window of the length LEN calls for accepts the layout of R63 and nothing else. -/
theorem decodePayload_ok_iff {len : Nat} {window : Bytes} (hw : window.length = len + 1) (op : Byte) (results : Bytes) :
    decodePayload len window op = .ok results ↔
      len = results.length + 2 ∧ ∃ dcs, window = [0xD5#8, echoOf op] ++ results ++ [dcs] := by
  constructor
  · intro h
    unfold decodePayload at h
    split_ifs at h with hlen htfi hecho
    cases h
    match window, hw with
    | [], hw => simp at hw
    | [_], hw => simp at hw; omega
    | x :: y :: rest, hw =>
      simp only [List.getD_cons_zero, List.getD_cons_succ, ne_eq, not_not] at htfi hecho
      obtain ⟨dcs, hdcs⟩ : ∃ dcs, rest.drop (len - 2) = [dcs] :=
        List.length_eq_one_iff.mp (by simp at hw ⊢; omega)
      refine ⟨by simp at hw ⊢; omega, dcs, ?_⟩
      simp [htfi, hecho, tfiDevice, ← hdcs]
  · rintro ⟨rfl, dcs, rfl⟩
    simp [decodePayload, tfiDevice]

/-- Step 3 of R96 accepts a window of LEN + 1 bytes that sums to 0, with anything after it. -/
theorem decodeWindow_ok_iff (len : Nat) (rest : Bytes) (op : Byte) (results : Bytes) :
    decodeWindow len rest op = .ok results ↔
      len = results.length + 2 ∧ ∃ dcs trail, rest = [0xD5#8, echoOf op] ++ results ++ [dcs] ++ trail ∧
        (0xD5 + (op.toNat + 1) % 256 + byteSum results + dcs.toNat) % 256 = 0 := by
  have hsum (dcs : Byte) : byteSum ([0xD5#8, echoOf op] ++ results ++ [dcs]) =
      0xD5 + (op.toNat + 1) % 256 + byteSum results + dcs.toNat := by
    simp [Nat.add_assoc]
  constructor
  · intro h
    unfold decodeWindow at h
    split_ifs at h with hlen hzero
    obtain ⟨hlen', dcs, hwindow⟩ := (decodePayload_ok_iff (by rw [List.length_take]; omega) op results).mp h
    refine ⟨hlen', dcs, rest.drop (len + 1), ?_, ?_⟩
    · rw [← hwindow, List.take_append_drop]
    · rw [← hsum, ← hwindow]
      exact not_not.mp hzero
  · rintro ⟨rfl, dcs, trail, rfl, hzero⟩
    have hw : ([0xD5#8, echoOf op] ++ results ++ [dcs]).length = results.length + 2 + 1 := by simp
    rw [decodeWindow, if_neg (by simp), ← hw, List.take_left, if_neg (by rw [hsum]; exact not_not.mpr hzero)]
    exact (decodePayload_ok_iff hw op results).mpr ⟨rfl, dcs, rfl⟩

/-- Step 2 of R96 accepts a LEN and its LCS before such a window. -/
theorem decodeHeader_ok_iff (rest : Bytes) (op : Byte) (results : Bytes) :
    decodeHeader rest op = .ok results ↔ ∃ len lcs rest', rest = len :: lcs :: rest' ∧
      (len.toNat + lcs.toNat) % 256 = 0 ∧ decodeWindow len.toNat rest' op = .ok results := by
  match rest with
  | [] => simp [decodeHeader]
  | [_] => simp [decodeHeader]
  | len :: lcs :: rest' => by_cases h : (len.toNat + lcs.toNat) % 256 = 0 <;> simp [decodeHeader, h]

/-- Step 1 of R96 accepts one leading zero or more, and then the second start byte. -/
theorem decodeStart_ok_iff (rest : Bytes) (op : Byte) (results : Bytes) :
    decodeStart rest op = .ok results ↔ ∃ rest', rest = 0xFF#8 :: rest' ∧ decodeHeader rest' op = .ok results := by
  match rest with
  | [] => simp [decodeStart]
  | x :: rest' => by_cases h : x = 0xFF#8 <;> simp [decodeStart, startByte, h]

theorem decodeResponse_ok_iff (b : Bytes) (op : Byte) (results : Bytes) :
    decodeResponse b op = .ok results ↔
      ∃ z rest, b = List.replicate (z + 1) 0x00#8 ++ 0xFF#8 :: rest ∧ decodeHeader rest op = .ok results := by
  constructor
  · intro h
    obtain ⟨hb, hhead⟩ := leadingCount_split 0x00#8 b
    rw [hb, decodeResponse_split _ _ op hhead] at h
    split_ifs at h with hz
    obtain ⟨rest, hrest, hheader⟩ := (decodeStart_ok_iff _ op results).mp h
    obtain ⟨z, hz⟩ := Nat.exists_eq_succ_of_ne_zero hz
    exact ⟨z, rest, by rwa [hrest, hz] at hb, hheader⟩
  · rintro ⟨z, rest, rfl, h⟩
    rw [decodeResponse_split (z + 1) _ op (by simp), if_neg (Nat.succ_ne_zero z), decodeStart_ok_iff]
    exact ⟨rest, rfl, h⟩

/-- The echo written as the opcode's successor (R63). -/
theorem echoOf_eq (op : Byte) : echoOf op = BitVec.ofNat 8 (op.toNat + 1) := by
  apply BitVec.eq_of_toNat_eq
  rw [echoOf_toNat, ofNat8_toNat]

/-- Settles O23: the laws of the decoder's steps in turn, with LEN one byte. -/
theorem acceptedResponses : Obligations.AcceptedResponses := by
  intro b op results s
  rw [exec_decodeResponse_iff, decodeResponse_ok_iff, ← echoOf_eq]
  constructor
  · rintro ⟨z, rest, rfl, h⟩
    obtain ⟨len, lcs, rest', rfl, hlcs, h⟩ := (decodeHeader_ok_iff rest op results).mp h
    obtain ⟨hlen, dcs, trail, rfl, hdcs⟩ := (decodeWindow_ok_iff _ _ op results).mp h
    have hlt : len.toNat < 256 := len.isLt
    refine ⟨z, lcs, dcs, trail, ?_, by omega, hlen ▸ hlcs, hdcs⟩
    rw [← hlen, BitVec.ofNat_toNat]
    simp
  · rintro ⟨z, lcs, dcs, trail, rfl, hlen, hlcs, hdcs⟩
    have hmod : (BitVec.ofNat 8 (results.length + 2)).toNat = results.length + 2 := by rw [ofNat8_toNat]; omega
    refine ⟨z, BitVec.ofNat 8 (results.length + 2) :: lcs :: ([0xD5#8, echoOf op] ++ results ++ [dcs] ++ trail),
      by simp, (decodeHeader_ok_iff _ op results).mpr ⟨_, _, _, rfl, by rw [hmod, hlcs], ?_⟩⟩
    exact (decodeWindow_ok_iff _ _ op results).mpr ⟨hmod, dcs, trail, rfl, hdcs⟩

/-- Settles O26: `acceptedResponses` both ways; LCS checks the number of result bytes and DCS their sum, and neither
changes. -/
theorem cancellingChangesPass : Obligations.CancellingChangesPass := by
  intro op lcs dcs r r' trail s hlen hsum h
  rw [echoOf_eq] at h ⊢
  obtain ⟨z, lcs', dcs', trail', heq, hle, hlcs, hdcs⟩ := (acceptedResponses _ op r s).mp h
  obtain ⟨rfl, rfl, -⟩ : lcs = lcs' ∧ dcs = dcs' ∧ trail = trail' := by
    match z with
    | 0 => simp at heq
    | 1 => simpa [List.replicate] using heq
    | z + 2 => simp [List.replicate_succ] at heq
  refine (acceptedResponses _ op r' s).mpr ⟨1, lcs, dcs, trail, ?_, ?_, ?_, ?_⟩
  · rw [hlen]; rfl
  · omega
  · omega
  · omega

/-- Settles O27: LEN and LCS of the first three do not sum to 0 mod 256, and the LEN of the fourth is below 2. -/
theorem unsupportedFrames : Obligations.UnsupportedFrames := fun _ _ => ⟨rfl, rfl, rfl, rfl⟩

/-- The encoder returns the frame of R62 and nothing else. -/
theorem encodeCommand_ok_iff (op : Byte) (ps f : Bytes) :
    encodeCommand op ps = .ok f ↔ ps.length ≤ 252 ∧ f = commandFrame op ps := by
  by_cases h : ps.length ≤ 252
  · simp [encodeCommand_ok op h, h, eq_comm]
  · simp [encodeCommand_error op (Nat.lt_of_not_le h), h]

/-- The bytes DCS covers, TFI to DCS, sum to 0 mod 256 (R61). -/
theorem commandFrame_window_sum (op : Byte) (ps : Bytes) :
    byteSum (((commandFrame op ps).drop 5).take (ps.length + 3)) % 256 = 0 := by
  have hwindow : ((commandFrame op ps).drop 5).take (ps.length + 3) =
      [0xD4#8, op] ++ ps ++ [neg8 (0xD4 + op.toNat + byteSum ps)] := by
    rw [commandFrame_eq]
    simp [List.take_length_add_append]
  have hsum := add_neg8_mod (0xD4 + op.toNat + byteSum ps)
  rw [hwindow]
  simp only [byteSum_append, byteSum_cons, byteSum_nil]
  simpa [Nat.add_assoc] using hsum

/-- Settles O20: the encoder returns `commandFrame`, whose bytes `commandFrame_eq` writes out. -/
theorem commandFrameProperties : Obligations.CommandFrameProperties := by
  refine ⟨fun op ps f h => ?_, fun op op' ps ps' f h h' => ?_⟩
  · obtain ⟨hlen, rfl⟩ := (encodeCommand_ok_iff op ps f).mp h
    refine ⟨commandFrame_length op ps, rfl, ?_, rfl, rfl, ?_, commandFrame_window_sum op ps, ?_⟩
    · have hlcs := add_neg8_mod (ps.length + 2)
      rw [commandFrame_eq]
      simpa using hlcs
    · rw [commandFrame_eq]
      simp
    · rw [commandFrame_eq]
      simp
  · obtain ⟨-, rfl⟩ := (encodeCommand_ok_iff op ps f).mp h
    obtain ⟨-, hframe⟩ := (encodeCommand_ok_iff op' ps' _).mp h'
    exact commandFrame_inj hframe

/-- The reply made of a command frame is the response frame with the parameters for result bytes (R98). -/
theorem asReply_commandFrame (op : Byte) (ps : Bytes) : asReply (commandFrame op ps) = replyFrame op ps := by
  have hopcode : (commandFrame op ps).getD 6 0x00#8 = op := rfl
  have hparams : ((commandFrame op ps).take ((commandFrame op ps).length - 2)).drop 7 = ps := by
    rw [commandFrame_length, commandFrame_eq]
    simp
  have hhead : (commandFrame op ps).take 5 =
      [0x00#8, 0x00#8, 0xFF#8, BitVec.ofNat 8 (ps.length + 2), neg8 (ps.length + 2)] := by
    rw [commandFrame_eq]
    rfl
  have hlast : (commandFrame op ps).drop ((commandFrame op ps).length - 1) = [0x00#8] := by
    rw [commandFrame_length, commandFrame_eq]
    simp
  simp only [asReply, hopcode, hparams, hhead, hlast, replyFrame, responseFrame, byteSum_cons, zeroByte, startByte,
    tfiDevice, ← Nat.add_assoc]
  rfl

/-- Settles O24: `asReply_commandFrame`, and a response frame decodes to its result bytes. -/
theorem frameRoundTrip : Obligations.FrameRoundTrip := by
  intro op ps f s hlen h
  obtain ⟨-, rfl⟩ := (encodeCommand_ok_iff op ps f).mp h
  rw [exec_decodeResponse_iff, asReply_commandFrame]
  exact decodeResponse_responseFrame 2 op ps _ (by omega) (by omega)

section
/-- Where the window stands in a response frame: after the zeros, the start byte, LEN and LCS. -/
theorem responseFrame_eq_window (z : Nat) (echo : Byte) (results trail : Bytes) :
    responseFrame z echo results trail =
      (List.replicate z 0x00#8 ++ [0xFF#8, BitVec.ofNat 8 (results.length + 2), neg8 (results.length + 2)]) ++
        (responseWindow echo results ++ trail) := by
  rw [responseFrame_eq]
  simp only [List.append_assoc]

variable {z j : Nat} {echo : Byte} {results : Bytes} (hj : j < (responseWindow echo results).length) (trail : Bytes)
include hj

theorem responseFrame_getElem?_window :
    (responseFrame z echo results trail)[z + 3 + j]? = some (responseWindow echo results)[j] := by
  rw [responseFrame_eq_window, List.getElem?_append_right (by simp), List.getElem?_append_left (by simpa using hj)]
  simp

/-- A byte of the window replaced leaves a frame of the same layout with that window changed. -/
theorem responseFrame_set_window (v : Byte) :
    (responseFrame z echo results trail).set (z + 3 + j) v =
      List.replicate z 0x00#8 ++ ([0xFF#8, BitVec.ofNat 8 (results.length + 2), neg8 (results.length + 2)] ++
        (responseWindow echo results).set j v ++ trail) := by
  rw [responseFrame_eq_window, List.set_append_right _ _ (by simp), List.set_append_left _ _ (by simpa using hj)]
  simp

end

/-- One byte replaced by a different one leaves no sum at 0 mod 256. -/
theorem byteSum_set_mod {bs : Bytes} {j : Nat} {v : Byte} (hj : j < bs.length) (hne : bs[j] ≠ v)
    (h : byteSum bs % 256 = 0) : byteSum (bs.set j v) % 256 ≠ 0 := by
  have hset := byteSum_set bs j v hj
  have hne' : bs[j].toNat ≠ v.toNat := fun e => hne (BitVec.eq_of_toNat_eq e)
  have hold : bs[j].toNat < 256 := BitVec.isLt _
  have hnew : v.toNat < 256 := v.isLt
  omega

/-- Settles O25: the frame stays laid out as R63 says, so the decoder reaches the sum of its window, which is no longer
0. -/
theorem checksumRejection : Obligations.ChecksumRejection := by
  intro z echo op v results trail j s hz hlen hlow hhigh hne
  obtain ⟨k, rfl⟩ := Nat.exists_eq_add_of_le hlow
  have hw := responseWindow_length echo results
  have hk : k < (responseWindow echo results).length := by omega
  have hold : (responseWindow echo results)[k] ≠ v := fun e => hne (e ▸ responseFrame_getElem?_window hk trail)
  rw [exec_decodeResponse_iff, responseFrame_set_window hk trail v,
    decodeResponse_window z _ _ trail op hz (by omega) (by rw [List.length_set, hw]),
    if_pos (byteSum_set_mod hk hold (responseWindow_sum echo results))]

end Sys2Proof.Machine

/-! ### Transport, and what an exchange sends and reports (41_transport R113, R119, 42_session R135 to R152) -/

namespace Sys2Proof.Machine

theorem exec_readExactAvailable (maxCount : Nat) (s : State) :
    exec (.readExactAvailable maxCount) s = .next { s with
      line := (readExactAvailable maxCount s.line).2,
      result := some (.got (readExactAvailable maxCount s.line).1) } := rfl

/-- Settles O29: the arrival is the one `readExactAvailable_spec` names, and under a script
`readExactAvailable_scripted` tells what is left of it. -/
theorem readExactResult : Obligations.ReadExactResult := by
  intro m s
  obtain ⟨bs, hbs, hgot, hrx, htx, hrst, hpulses, hdraws⟩ := readExactAvailable_spec m s.line
  refine ⟨bs, _, _, exec_readExactAvailable m s, hgot, ?_, ?_, htx, hrst, hpulses, hdraws,
    fun bs' rest hscript => ⟨?_, ?_⟩⟩
  · rw [hgot, hrx, List.take_append_drop]
  · rw [hgot, List.length_take]
  · rw [hbs, Line.drawArrival_scripted hscript]
  · rw [readExactAvailable_scripted m hscript]
    exact ⟨rfl, rfl⟩

/-- Settles O31: `resetSequence_eq`. -/
theorem resetSequenceResult : Obligations.ResetSequenceResult := fun s => by
  rw [← resetSequence_eq]
  rfl

theorem exec_samConfiguration (s : State) :
    exec .samConfiguration s = .next { s with line := samConfiguration s.params s.line, result := some .done } := rfl

/-- Settles O34: SAM configuration keeps the line its exchange leaves. -/
theorem samConfigurationIsExchange : Obligations.SamConfigurationIsExchange := fun s =>
  ⟨_, exec_exchange _ _ _ _ s, exec_samConfiguration s⟩

/-- Settles O35: a wake-up is the SAM configuration of the line that the preamble's write leaves. -/
theorem wakeupIsPreambleThenSam : Obligations.WakeupIsPreambleThenSam := fun s =>
  ⟨_, _, exec_clearAndWrite _ s, exec_samConfiguration _, exec_wakeup s⟩

/-- A wait and a read send nothing (R113, R116). -/
@[simp] theorem waitForData_txlog (tmo : Nat) (l : Line) : (waitForData tmo l).2.txlog = l.txlog := by
  obtain ⟨_, -, -, -, h, -⟩ := waitForData_spec tmo l
  exact h

@[simp] theorem readExactAvailable_txlog (m : Nat) (l : Line) : (readExactAvailable m l).2.txlog = l.txlog := by
  obtain ⟨_, -, -, -, h, -⟩ := readExactAvailable_spec m l
  exact h

/-- After its write an exchange sends nothing (R140 steps 3 to 7). -/
theorem awaitResponse_txlog (op : Byte) (n tmo : Nat) (l : Line) : (awaitResponse op n tmo l).2.txlog = l.txlog := by
  simp only [awaitResponse]
  split_ifs
  · simp
  · simp
  · split <;> simp

theorem awaitAck_txlog (op : Byte) (n tmo : Nat) (l : Line) : (awaitAck op n tmo l).2.txlog = l.txlog := by
  simp only [awaitAck]
  split_ifs <;> simp [awaitResponse_txlog]

/-- An exchange sends at most its own command frame, from its front (R140, D17). -/
theorem exchange_txlog (op : Byte) (ps : Bytes) (n tmo : Nat) (l : Line) :
    ∃ k, (exchange op ps n tmo l).2.txlog = l.txlog ++ (commandFrame op ps).take k := by
  by_cases hp : ps.length ≤ 252
  · obtain ⟨d, -, hres, -, hsent, -⟩ := clearAndWrite_spec (commandFrame op ps) l
    rw [exchange, encodeCommand_ok op hp]
    cases hd : d.ok with rw [hd] at hres hsent
    | false =>
      simp only [hres]
      exact ⟨d.sent, hsent⟩
    | true =>
      simp only [hres, if_true]
      exact ⟨(commandFrame op ps).length, by rw [awaitAck_txlog, hsent, List.take_length]; rfl⟩
  · rw [exchange_badRequest (Nat.lt_of_not_le hp)]
    exact ⟨0, (List.append_nil _).symm⟩

/-- The kinds of class ProtocolViolation are the six an exchange can report (60_exceptions R191, R193). -/
theorem kinds_of_protocolViolation {k : ErrorKind} (h : k.errorClass = .protocolViolation) :
    k = .badAck ∨ k = .missingStartCode ∨ k = .lengthChecksumMismatch ∨ k = .dataChecksumMismatch ∨
      k = .unexpectedResponse ∨ k = .truncatedFrame := by
  cases k <;> simp [ErrorKind.errorClass] at h ⊢

/-- `BadRequest` is reported exactly above 252 parameters (R195). -/
theorem exchange_badRequest_iff (op : Byte) (ps : Bytes) (n tmo : Nat) (l : Line) (k : ErrorKind) :
    (exchange op ps n tmo l).1 = .badRequest k ↔ 252 < ps.length ∧ k = .invalidParameterCount := by
  by_cases hp : ps.length ≤ 252
  · simp [exchange_ne_badRequest hp k, hp]
  · simp [exchange_badRequest (Nat.lt_of_not_le hp), Nat.lt_of_not_le hp, eq_comm]

/-- Settles O33: each clause is the law of `exchange` on it. -/
theorem exchangeFrame : Obligations.ExchangeFrame := by
  intro s op ps n tmo
  obtain ⟨k, hk⟩ := exchange_txlog op ps n tmo s.line
  obtain ⟨-, hrst, hpulses⟩ := exchange_extends op ps n tmo s.line
  exact ⟨_, _, k, exec_exchange op ps n tmo s, hk, hrst, hpulses,
    fun e h => kinds_of_protocolViolation (exchange_kind h), exchange_badRequest_iff op ps n tmo s.line⟩

end Sys2Proof.Machine

/-! ### Calls under a script of the environment (42_session R145 to R155, 43_tracker R175) -/

namespace Sys2Proof.Machine

/-- Transport's part after a write of which `sent` went out, and nothing arrived (R110). -/
def Line.afterWrite (l : Line) (sent : Bytes) (ws : List WriteDraw) : Line :=
  { l with rxbuf := [], txlog := l.txlog ++ sent, writeDraws := ws }

/-- Transport's part after a write and an answer read to its end. -/
def Line.afterAnswer (l : Line) (sent : Bytes) (ws : List WriteDraw) (rest : List Bytes) : Line :=
  { l.afterWrite sent ws with arrivals := rest }

/-- A call that a device acknowledges and answers within the read budget returns the result bytes (R140, R145). -/
theorem runCall_answered {s : State} {op : Byte} {ps results : Bytes} {n : Nat} (tmo : Nat) {ws : List WriteDraw}
    {rest : List Bytes} (hs : s.sessionState = .ready) (hp : ps.length ≤ 252) (hr : results.length ≤ 253)
    (hn : results.length ≤ n) (hw : s.line.writeDraws = writeOkDraw :: ws)
    (ha : s.line.arrivals = answer (replyFrame op results) ++ rest) :
    runCall op ps n tmo s = (.ok results, { s with line := s.line.afterAnswer (commandFrame op ps) ws rest }) := by
  rw [runCall_ready hs, exchange_answered op ps n tmo results hp hr hn hw ha]
  rfl

/-- Settles O37: `runCall_answered`. -/
theorem callCompletes : Obligations.CallCompletes := by
  intro s op ps results n tmo ws rest hs hp hr hn hw ha
  rw [exec_call, runCall_answered tmo hs hp hr hn hw ha]
  rfl

/-- Settles O46: `runCall_answered`, and four result bytes are a firmware version. -/
theorem getFirmwareCompletes : Obligations.GetFirmwareCompletes := by
  intro s ic ver rev sup ws rest hs hw ha
  rw [exec_getFirmwareVersion, runCall_answered (ps := []) (n := 4) _ hs (by simp) (by simp) (by simp) hw ha]
  rfl

/-- The result bytes that report one target (30_encoding R69). -/
def targetPayload (metadata uid more : Bytes) : Bytes :=
  [0x01#8] ++ metadata ++ [BitVec.ofNat 8 uid.length] ++ uid ++ more

theorem targetPayload_length (metadata uid more : Bytes) :
    (targetPayload metadata uid more).length = metadata.length + uid.length + more.length + 2 := by
  simp [targetPayload]
  omega

/-- The three lengths of a TagUID (10_state R20). -/
theorem isTagUid_length {u : Bytes} (h : isTagUid u = true) : u.length = 4 ∨ u.length = 7 ∨ u.length = 10 := by
  simpa [isTagUid, or_assoc] using h

/-- The UID is read out of such result bytes where its length byte stands at `UID_LEN_OFFSET` (R155). -/
theorem uidOf_targetPayload (metadata more : Bytes) {uid : Bytes} (h : isTagUid uid = true) :
    uidOf (metadata.length + 1) (targetPayload metadata uid more) = some uid := by
  have huid := isTagUid_length h
  have hlenByte : ((targetPayload metadata uid more).getD (metadata.length + 1) 0x00#8).toNat = uid.length := by
    simp [targetPayload]
    omega
  have hrest : (targetPayload metadata uid more).drop (metadata.length + 1 + 1) = uid ++ more := by
    simp [targetPayload]
  have hlen := targetPayload_length metadata uid more
  have hcount : (targetPayload metadata uid more).getD 0 0x00#8 = 0x01#8 := rfl
  simp only [uidOf, hcount, hlenByte, hrest, ne_eq, not_true_eq_false, or_false]
  rw [if_neg (by omega), if_neg (by omega), if_neg (by omega), if_pos huid, List.take_left]

/-- An exchange whose write fails ends there (R140, R194). -/
theorem exchange_writeFails (op : Byte) {ps : Bytes} (n tmo : Nat) {l : Line} {k : Nat} {ws : List WriteDraw}
    (hp : ps.length ≤ 252) (hw : l.writeDraws = ⟨false, k, []⟩ :: ws) :
    exchange op ps n tmo l = (.writeFailed, l.afterWrite ((commandFrame op ps).take k) ws) := by
  rw [exchange_scripted op ps n tmo hp hw, if_pos rfl]
  rfl

/-- A wake-up whose two writes fail (R135, D18). -/
theorem wakeup_writeFails (p : Params) {l : Line} {k2 k3 : Nat} {ws : List WriteDraw}
    (hw : l.writeDraws = ⟨false, k2, []⟩ :: ⟨false, k3, []⟩ :: ws) :
    wakeup p l = (l.afterWrite ((wakeBytesOf p).take k2) (⟨false, k3, []⟩ :: ws)).afterWrite
      ((commandFrame opSam samParams).take k3) ws := by
  rw [wakeup, samConfiguration, clearAndWrite_scripted _ hw, exchange_writeFails opSam _ _ (by decide) rfl]
  rfl

/-- Settles O38: the exchange's write fails, then the two of the wake-up it triggers. -/
theorem callWriteFailure : Obligations.CallWriteFailure := by
  intro s op ps n tmo k1 k2 k3 ws hs hp hw
  have hwake := wakeup_writeFails s.params (k2 := k2) (k3 := k3) (ws := ws)
    (l := s.line.afterWrite ((commandFrame op ps).take k1) _) rfl
  rw [exec_call, runCall_ready hs, exchange_writeFails op n tmo hp hw]
  simp only [hwake]
  rfl

/-- With the ACK at the front of what its first wait and read bring, an exchange goes on to the response (R140
step 4). -/
theorem awaitAck_acknowledged (op : Byte) (n tmo : Nat) {l : Line} {a1 a2 left : Bytes} {rest : List Bytes}
    (ha : l.arrivals = a1 :: a2 :: rest) (hne : l.rxbuf ++ a1 ≠ []) (hack : l.rxbuf ++ a1 ++ a2 = ackBytes ++ left) :
    awaitAck op n tmo l = awaitResponse op n tmo { l with rxbuf := left, arrivals := rest } := by
  have htake : (ackBytes ++ left).take 6 = ackBytes := rfl
  have hdrop : (ackBytes ++ left).drop 6 = left := rfl
  rw [awaitAck_scripted op n tmo ha, if_neg hne, hack, htake, hdrop, if_neg (not_not.mpr rfl)]

/-- With a frame of `n` result bytes at the front of what the second wait and read bring, those bytes are the payload,
and what follows the frame stays unread (R140 steps 5 to 7). -/
theorem awaitResponse_reply (op : Byte) {n : Nat} (tmo : Nat) {l : Line} {a3 a4 results left : Bytes}
    {rest : List Bytes} (hn : results.length = n) (hr : n ≤ 253) (ha : l.arrivals = a3 :: a4 :: rest)
    (hne : l.rxbuf ++ a3 ≠ []) (hreply : l.rxbuf ++ a3 ++ a4 = replyFrame op results ++ left) :
    awaitResponse op n tmo l = (.payload results, { l with rxbuf := left, arrivals := rest }) := by
  have hlen : (replyFrame op results).length = n + 9 := by rw [replyFrame_length, hn]
  have hdec : decodeResponse (replyFrame op results) op = .ok results :=
    decodeResponse_responseFrame 2 op results _ (by omega) (by omega)
  rw [awaitResponse_scripted op n tmo ha, if_neg hne, hreply, ← hlen, List.take_left, List.drop_left, hdec]

/-- Settles O39: the ACK and the stale reply are at the front of `rxbuf` when the exchange looks for them, so it reads
those, and what arrives in its waits stays behind. -/
theorem lateReplyAccepted : Obligations.LateReplyAccepted := by
  intro s op ps stale fresh n tmo ws rest hs hp hn hlen hw ha
  have hstale : replyFrame op stale ≠ [] := List.ne_nil_of_length_pos (by rw [replyFrame_length]; omega)
  have hsent : exchange op ps n tmo s.line = awaitAck op n tmo { s.line with
      rxbuf := ackBytes ++ replyFrame op stale, txlog := s.line.txlog ++ commandFrame op ps, writeDraws := ws } :=
    exchange_scripted op ps n tmo hp hw
  have hack := hsent.trans (awaitAck_acknowledged (left := replyFrame op stale ++ ackBytes) op n tmo ha
    (by simp [hstale]) (by simp))
  have hreply := hack.trans (awaitResponse_reply (left := ackBytes ++ replyFrame op fresh) op tmo hn hlen rfl
    (by simp [hstale]) (by simp))
  rw [exec_call, runCall_ready hs, hreply]

/-- A read of a device that reports one target returns its UID (R155, R69). -/
theorem runReadTarget_answered {s : State} {metadata uid more : Bytes} {ws : List WriteDraw} {rest : List Bytes}
    (hs : s.sessionState = .ready) (huid : isTagUid uid = true) (hoff : s.params.uidLenOffset = metadata.length + 1)
    (hlen : metadata.length + uid.length + more.length ≤ 17) (hw : s.line.writeDraws = writeOkDraw :: ws)
    (ha : s.line.arrivals = answer (replyFrame 0x4A#8 (targetPayload metadata uid more)) ++ rest) :
    runReadTarget s = ((some uid, .statusOk), { s with
      line := s.line.afterAnswer (commandFrame 0x4A#8 [0x01#8, s.params.baudRateCode]) ws rest }) := by
  have hpayload := targetPayload_length metadata uid more
  have hcall := runCall_answered (ps := listTargetParams s.params.baudRateCode) (n := targetResultLen)
    s.params.shortTimeout hs (by simp [listTargetParams]) (by omega) (by rw [targetResultLen]; omega) hw ha
  rw [runReadTarget]
  simp only [opListTarget, hcall, targetOf, hoff, uidOf_targetPayload metadata more huid]
  rfl

/-- Settles O48: `runReadTarget_answered`. -/
theorem readTargetCompletes : Obligations.ReadTargetCompletes := by
  intro s metadata uid more ws rest hs huid hoff hlen hw ha
  simp only [exec, execReadTarget, runReadTarget_answered hs huid hoff hlen hw ha]
  rfl

/-- Settles O53: `exec_poll` of that read, and the tracker's step is the one on a UID while no tag is present. -/
theorem pollCompletes : Obligations.PollCompletes := by
  intro s metadata uid ws rest hs habsent huid hoff hlen hw ha
  have ha' : s.line.arrivals = answer (replyFrame 0x4A#8 (targetPayload metadata uid [])) ++ rest := by
    rw [ha, targetPayload, List.append_nil]
  rw [exec_poll (runReadTarget_answered hs huid hoff (by simpa using hlen) hw ha'), trackerStep_appear uid habsent]
  rfl

end Sys2Proof.Machine

/-! ### INITIALIZE for every environment and under a script (42_session R130) -/

namespace Sys2Proof.Machine

/-- Settles O41: `exec_initSession_refused`, and otherwise the attempts after the reset sequence, which leave its pulse
and level alone, with one of two outcomes. -/
theorem initializeOutcomes : Obligations.InitializeOutcomes := by
  refine fun s => ⟨exec_initSession_refused, fun hawaiting hbusy => ?_⟩
  obtain ⟨hsent, hhigh, hpulses⟩ := (attempts_extends s.params 2 (resetSequence s.line)).of_resetSequence
  refine ⟨_, hhigh, hpulses, hsent, ?_⟩
  rcases ha : attempts s.params 2 (resetSequence s.line) with ⟨r, l⟩
  cases r with
  | some v => exact .inl ⟨v, exec_initSession_of_attempts hawaiting hbusy ha⟩
  | none => exact .inr (exec_initSession_of_attempts hawaiting hbusy ha)

/-- Settles O42: the first attempt is the answered one. -/
theorem initializeCompletes : Obligations.InitializeCompletes := by
  intro s ic ver rev sup ws rest hawaiting hbusy hw ha
  rw [exec_initSession_of_attempts hawaiting hbusy
    (attempts_answered s.params 1 (l := resetSequence s.line) hw ha)]
  rfl

/-- What two attempts add to `txlog`: preamble, SAM frame and firmware frame, twice (R130). -/
theorem two_attempts_sent (p : Params) (log : Bytes) :
    log ++ wakeBytesOf p ++ commandFrame opSam samParams ++ commandFrame opFirmware [] ++ wakeBytesOf p ++
        commandFrame opSam samParams ++ commandFrame opFirmware [] =
      log ++ (List.replicate 2 (wakePattern p.wake55Count p.wake00Count ++
        commandFrame 0x14#8 [0x01#8, 0x14#8, 0x01#8] ++ commandFrame 0x02#8 [])).flatten := by
  simp only [List.replicate, List.flatten_cons, List.flatten_nil, List.append_nil, List.append_assoc]
  rfl

/-- Settles O43: a silent attempt, then an answered one. -/
theorem initializeRetries : Obligations.InitializeRetries := by
  intro s ic ver rev sup ws rest hawaiting hbusy hw ha
  have hfirst := attempts_silent s.params 1 (l := resetSequence s.line) hw ha
  have hsecond := hfirst.trans (attempts_answered s.params 0 rfl rfl)
  refine ⟨_, exec_initSession_of_attempts hawaiting hbusy hsecond, rfl, rfl, rfl, rfl,
    two_attempts_sent s.params s.line.txlog⟩

/-- Settles O44: two silent attempts, and no third. -/
theorem initializeFails : Obligations.InitializeFails := by
  intro s ws rest hawaiting hbusy hw ha
  have hfirst := attempts_silent s.params 1 (l := resetSequence s.line) hw ha
  have hsecond := hfirst.trans (attempts_silent s.params 0 rfl rfl)
  refine ⟨_, exec_initSession_of_attempts hawaiting hbusy hsecond, rfl, rfl, rfl,
    two_attempts_sent s.params s.line.txlog⟩

end Sys2Proof.Machine

/-! ### Wire patterns on their channels (30_encoding R62 to R69) -/

namespace Sys2Proof.Machine

/-- A transmit pattern is the write of its bytes (log entry 4). -/
theorem sendOnWire_scripted (bs : Bytes) {s : State} {d : WriteDraw} {ws : List WriteDraw}
    (h : s.line.writeDraws = d :: ws) :
    sendOnWire bs s = { s with
      line := { s.line with
        rxbuf := d.arrived, txlog := s.line.txlog ++ (if d.ok then bs else bs.take d.sent), writeDraws := ws },
      result := some (.written (if d.ok then .writeOk else .writeFailed)) } := by
  rw [sendOnWire, clearAndWrite_scripted bs h]
  rfl

/-- LCS of a frame with `r` parameters or result bytes (R61). -/
theorem neg8_len {r : Nat} (h : r ≤ 253) : neg8 (r + 2) = BitVec.ofNat 8 (254 - r) := by
  rw [neg8_of_le (by omega) (by omega), Nat.sub_add_eq, Nat.sub_right_comm]

/-- The frame of R69: its fixed bytes sum to `0x11F`. -/
theorem listTarget_frame (bb : Byte) : commandFrame opListTarget (listTargetParams bb) =
    [0x00#8, 0x00#8, 0xFF#8, 0x04#8, 0xFC#8, 0xD4#8, 0x4A#8, 0x01#8, bb, neg8 (0x1F + bb.toNat), 0x00#8] := by
  have hdcs : neg8 (0xD4 + opListTarget.toNat + byteSum (listTargetParams bb)) = neg8 (0x1F + bb.toNat) := by
    apply BitVec.eq_of_toNat_eq
    simp only [neg8_toNat, opListTarget, listTargetParams, maxTargets, byteSum_cons, byteSum_nil, BitVec.toNat_ofNat]
    omega
  rw [commandFrame_eq, hdcs]
  rfl

/-- Settles O56: `sendOnWire_scripted` of the bytes of each row. -/
theorem wireTransmit : Obligations.WireTransmit := by
  intro s d ws h sent
  have hsend (bs : Bytes) : .next (sendOnWire bs s) = sent bs := congrArg _ (sendOnWire_scripted bs h)
  refine ⟨fun op ps hp => ?_, fun n55 n00 => hsend _, hsend _, hsend _, fun bb => ?_⟩
  · rw [← neg8_len (by omega), ← commandFrame_eq]
    exact hsend _
  · rw [← listTarget_frame]
    exact hsend _

/-- The bytes of a response frame, in order (R63). -/
theorem responseFrame_bytes (z : Nat) (echo : Byte) {results : Bytes} (trail : Bytes) (h : results.length ≤ 253) :
    responseFrame z echo results trail =
      List.replicate z 0x00#8 ++ [0xFF#8, BitVec.ofNat 8 (results.length + 2), BitVec.ofNat 8 (254 - results.length),
        0xD5#8, echo] ++ results ++
        [BitVec.ofNat 8 ((256 - (0xD5 + echo.toNat + byteSum results) % 256) % 256)] ++ trail := by
  rw [← neg8_len h]
  rfl

/-- Settles O57: the bytes written out are `responseFrame`, which arrives as it is and decodes to its result bytes. -/
theorem wireReceive : Obligations.WireReceive := by
  refine fun s => ⟨rfl, fun z echo results trail hlen => ?_⟩
  rw [← responseFrame_bytes z echo trail hlen]
  refine ⟨rfl, fun op hz hecho => ?_⟩
  rw [(eq_echoOf_iff echo op).mpr hecho]
  exact decodeResponse_responseFrame z op results trail hz hlen

end Sys2Proof.Machine

/-! ### The tracker over a run of results (43_tracker R169, R171) -/

namespace Sys2Proof.Machine

/-- Settles O50: the drawn TagUID takes the operand's place, and the event is the row of a hit on it. -/
theorem trackerStepOther : Obligations.TrackerStepOther := by
  intro u s hu
  obtain ⟨v, hv, hdraw⟩ := s.drawRaw_other hu
  refine ⟨v, hv, ?_⟩
  have hexec : exec (.trackerStep (some u)) s = .next (stepTracker (some v) { s with uidCount := s.uidCount + 1 }) := by
    simp only [exec, execTrackerStep, hdraw]
  rw [hexec, stepTracker]
  cases hp : s.tracker.presence with
  | absent =>
    rw [trackerStep_appear v hp]
    rfl
  | present w =>
    by_cases hvw : v = w
    · subst hvw
      rw [trackerStep_same hp]
      simp only [if_true]
      rfl
    · rw [trackerStep_change hp hvw]
      simp only [if_neg hvw]
      rfl

/-- Misses below the threshold only count (R170). -/
theorem trackerRun_misses {th : Nat} (u : Bytes) {m k : Nat} (h : m + k < th) :
    trackerRun th (List.replicate k none) { presence := .present u, missCnt := m } =
      (List.replicate k none, { presence := .present u, missCnt := m + k }) := by
  induction k generalizing m with
  | zero => rfl
  | succ k ih =>
    rw [List.replicate_succ, trackerRun, trackerStep_miss rfl (show m + 1 < th by omega)]
    simp only [ih (show m + 1 + k < th by omega), Nat.add_assoc, Nat.add_comm 1 k]
    rfl

/-- Misses while no tag is present do nothing (R170). -/
theorem trackerRun_absent (th m j : Nat) :
    trackerRun th (List.replicate j none) { presence := .absent, missCnt := m } =
      (List.replicate j none, { presence := .absent, missCnt := m }) := by
  induction j with
  | zero => rfl
  | succ j ih =>
    rw [List.replicate_succ, trackerRun, trackerStep_idle rfl]
    simp only [ih]
    rfl

/-- A run is the run of its first part and, from where that ends, the run of the rest. -/
theorem trackerRun_append (th : Nat) (rs rs' : List (Option Bytes)) (t : Tracker) :
    trackerRun th (rs ++ rs') t =
      ((trackerRun th rs t).1 ++ (trackerRun th rs' (trackerRun th rs t).2).1,
        (trackerRun th rs' (trackerRun th rs t).2).2) := by
  induction rs generalizing t with
  | nil => rfl
  | cons r rs ih => simp only [List.cons_append, trackerRun, ih]

/-- Settles O51: the run is the misses before the last one, the miss that removes the tag, and misses without a tag. -/
theorem debounceProperties : Obligations.DebounceProperties := by
  intro th m u hm
  refine ⟨fun k hk => trackerRun_misses u hk, fun j => ?_, fun v hv m' => trackerStep_change rfl hv⟩
  have hsplit : List.replicate (th - m + j) (none : Option Bytes) =
      List.replicate (th - m - 1) none ++ none :: List.replicate j none := by
    rw [← List.replicate_succ, List.replicate_append_replicate]
    congr 1
    omega
  have hlast : m + (th - m - 1) + 1 = th := by omega
  rw [hsplit, trackerRun_append, trackerRun_misses u (by omega), trackerRun,
    trackerStep_remove rfl (show m + (th - m - 1) + 1 ≥ th by omega)]
  simp only [trackerRun_absent, hlast]
  simp

end Sys2Proof.Machine

/-! ### Reset, status bits and codes (10_state R11 to R24, 60_exceptions R191) -/

namespace Sys2Proof.Machine

/-- A layout for 10-byte UIDs leaves room for one in the read budget (R222). -/
theorem offset_le_of_readsTenByte {layout : UidLayout} (h : layout.readsTenByte = true) : layout.offset + 11 ≤ 19 := by
  cases layout with
  | tenByte o => exact Nat.add_le_add_right (Nat.le_of_lt_succ o.isLt) 11
  | shorter o => cases h

/-- The parameters the block is constructed with are valid by the types of what they are made of (R222). -/
theorem reset_params_valid : Params.reset.Valid :=
  ⟨Config.threshold.pos, Config.wake55Count.pos, Config.wake00Count.pos, offset_le_of_readsTenByte⟩

/-- Settles O2: the values at reset are given, the parameters by `reset_params_valid`. -/
theorem resetMeetsInvariants : Obligations.ResetMeetsInvariants where
  left :=
    { settled := .inl rfl
      latched := by decide
      kinds := nofun
      restsHigh := rfl
      uidValid := nofun
      paramsValid := reset_params_valid }
  right :=
    { le := Nat.zero_le _
      lt := fun h => absurd rfl h }

/-- Settles O58: each bit is a comparison with the values it names. -/
theorem statusBits : Obligations.StatusBits := fun s => by
  simp [State.busy, State.faulted, State.tagPresent]

/-- The lengths of TagUIDs fit the 4 bits of `uid_len` (R13, R23). -/
theorem uidLenCode_present {u : Bytes} (h : isTagUid u = true) : (uidLenCode (.present u)).toNat = u.length := by
  have hlen := isTagUid_length h
  rw [uidLenCode, BitVec.toNat_ofNat]
  omega

/-- Settles O59: the tables are read off; no kind has code 0, 14 or 15 and no session state a code above 4. -/
theorem enumerationCodes : Obligations.EnumerationCodes := by
  refine ⟨rfl, rfl, rfl, ⟨rfl, by decide, rfl, rfl, rfl, rfl, rfl, rfl⟩, fun k => ?_, fun v => ?_,
    fun u v => ⟨rfl, rfl, rfl, rfl⟩, rfl, fun u => uidLenCode_present⟩
  · cases k <;> decide
  · cases v <;> decide

end Sys2Proof.Machine
